-- ==== Sys2Proof/Word.lean ====
section
/-! DEFINITION. The fixed-width words the spec names (00_scope.md R12; 30_encoding.md R100, R104). Quantities the
spec calls naturals (cursors, counts, counters, times: R12, R120) stay `Nat`. -/

namespace Sys2Proof

/-- A `u8`: one element of every byte storage and payload (R12, R71). -/
abbrev Byte := BitVec 8

/-- A `u16`: a fault code, the ARG field, the VALUE field (R12, R72). -/
abbrev Half := BitVec 16

/-- A 32-bit command word or response word (R100). -/
abbrev Word := BitVec 32

end Sys2Proof
end

