-- ==== Sys2Proof/Syntax.lean ====
section
/-! DEFINITION. The instructions: one constructor per command of 30_encoding.md R108, with the 16-bit ARG of a
format FA command as its operand (R102, R107). "The payload is data, not instruction" (R100): a PUSH's bytes are
an input of the transaction (`Machine.Transaction`), as `now`, `line_idle` and `start_ok` are. -/

namespace Sys2Proof

/-- The 33 commands of R108. -/
inductive Instr where
  /-- RBT.PUSH n (R140) -/
  | rbtPush (n : Half)
  /-- RBT.POP m (R141) -/
  | rbtPop (m : Half)
  /-- RBT.POPN n (R142) -/
  | rbtPopn (n : Half)
  /-- RBT.CLEAR (R143) -/
  | rbtClear
  /-- RBT.LEN (R144) -/
  | rbtLen
  /-- RBT.ISEMPTY (R145) -/
  | rbtIsempty
  /-- RBT.AVAIL (R146) -/
  | rbtAvail
  /-- RBT.CAP (R147) -/
  | rbtCap
  /-- RBT.ISFULL (R148) -/
  | rbtIsfull
  /-- RBR.PUSH n (R140) -/
  | rbrPush (n : Half)
  /-- RBR.POP m (R141) -/
  | rbrPop (m : Half)
  /-- RBR.POPN n (R142) -/
  | rbrPopn (n : Half)
  /-- RBR.CLEAR (R143) -/
  | rbrClear
  /-- RBR.LEN (R144) -/
  | rbrLen
  /-- RBR.ISEMPTY (R145) -/
  | rbrIsempty
  /-- RBR.AVAIL (R146) -/
  | rbrAvail
  /-- RBR.CAP (R147) -/
  | rbrCap
  /-- RBR.ISFULL (R148) -/
  | rbrIsfull
  /-- LTX.START len (R177) -/
  | ltxStart (len : Half)
  /-- LTX.DONE (R178) -/
  | ltxDone
  /-- LTX.FAULT (R179) -/
  | ltxFault
  /-- LTX.STATUS (R180) -/
  | ltxStatus
  /-- LTX.RETRIES (R181) -/
  | ltxRetries
  /-- LRX.START (R182) -/
  | lrxStart
  /-- LRX.READ (R183) -/
  | lrxRead
  /-- LRX.FAULT (R184) -/
  | lrxFault
  /-- LRX.STATUS (R185) -/
  | lrxStatus
  /-- LRX.RETRIES (R186) -/
  | lrxRetries
  /-- LRX.IDLE (R189) -/
  | lrxIdle
  /-- FQ.ENQ code (R240) -/
  | fqEnq (code : Half)
  /-- FQ.DEQ (R241) -/
  | fqDeq
  /-- ENC.ENCODE v (R261) -/
  | encEncode (v : Half)
  /-- ANN.TICK (R281) -/
  | annTick
  deriving DecidableEq, Repr

end Sys2Proof
end

