-- ==== Sys2Proof/Decode.lean ====
section
/-! DEFINITION. The decoder of 30_encoding.md R109 (total; every other word is illegal, by the name of the check
it fails), the encoder written from the same table (R101, R108), and the table's match and mask columns. -/

namespace Sys2Proof

/-- Why a command word is illegal: the checks (1) to (4) of R109, in their order. Check (5), the operand check of
POPN, needs the configuration and is made by the command itself (R142). -/
inductive DecodeError where
  /-- (1) `CW[23:16]` is not zero. -/
  | reservedField
  /-- (2) UNIT is not in 1 to 7. -/
  | reservedUnit
  /-- (3) OP is not listed for that UNIT. -/
  | reservedOp
  /-- (4) format FZ and ARG is not zero. -/
  | argNotZero
  deriving DecidableEq, Repr

/-- `CW[31:28]` (R101). -/
def cwUnit (cw : Word) : BitVec 4 := cw.extractLsb' 28 4

/-- `CW[27:24]` (R101). -/
def cwOp (cw : Word) : BitVec 4 := cw.extractLsb' 24 4

/-- `CW[23:16]` (R101). -/
def cwRsv (cw : Word) : BitVec 8 := cw.extractLsb' 16 8

/-- `CW[15:0]` (R101). -/
def cwArg (cw : Word) : Half := cw.extractLsb' 0 16

/-- The command that UNIT, OP and ARG name, and whether its format is FA (R108); `none` where OP is not listed for
UNIT. In format FZ the argument is not part of the command. -/
def commandOf (unit op : Nat) (arg : Half) : Option (Instr × Bool) :=
  match unit, op with
  | 1, 0 => some (.rbtPush arg, true)
  | 1, 1 => some (.rbtPop arg, true)
  | 1, 2 => some (.rbtPopn arg, true)
  | 1, 3 => some (.rbtClear, false)
  | 1, 4 => some (.rbtLen, false)
  | 1, 5 => some (.rbtIsempty, false)
  | 1, 6 => some (.rbtAvail, false)
  | 1, 7 => some (.rbtCap, false)
  | 1, 8 => some (.rbtIsfull, false)
  | 2, 0 => some (.rbrPush arg, true)
  | 2, 1 => some (.rbrPop arg, true)
  | 2, 2 => some (.rbrPopn arg, true)
  | 2, 3 => some (.rbrClear, false)
  | 2, 4 => some (.rbrLen, false)
  | 2, 5 => some (.rbrIsempty, false)
  | 2, 6 => some (.rbrAvail, false)
  | 2, 7 => some (.rbrCap, false)
  | 2, 8 => some (.rbrIsfull, false)
  | 3, 0 => some (.ltxStart arg, true)
  | 3, 1 => some (.ltxDone, false)
  | 3, 2 => some (.ltxFault, false)
  | 3, 3 => some (.ltxStatus, false)
  | 3, 4 => some (.ltxRetries, false)
  | 4, 0 => some (.lrxStart, false)
  | 4, 1 => some (.lrxRead, false)
  | 4, 2 => some (.lrxFault, false)
  | 4, 3 => some (.lrxStatus, false)
  | 4, 4 => some (.lrxRetries, false)
  | 4, 5 => some (.lrxIdle, false)
  | 5, 0 => some (.fqEnq arg, true)
  | 5, 1 => some (.fqDeq, false)
  | 6, 0 => some (.encEncode arg, true)
  | 7, 0 => some (.annTick, false)
  | _, _ => none

/-- Decode a command word (R109): the four checks in the rule's order. -/
def decode (cw : Word) : Except DecodeError Instr :=
  if cwRsv cw ≠ 0 then .error .reservedField
  else if (cwUnit cw).toNat = 0 ∨ 7 < (cwUnit cw).toNat then .error .reservedUnit
  else match commandOf (cwUnit cw).toNat (cwOp cw).toNat (cwArg cw) with
    | none => .error .reservedOp
    | some (i, fa) => if fa = false ∧ cwArg cw ≠ 0 then .error .argNotZero else .ok i

/-- A command word from its fields (R101): `UNIT << 28 | OP << 24 | ARG`, RSV zero. -/
def packWord (unit op : BitVec 4) (arg : Half) : Word := unit ++ op ++ (0 : BitVec 8) ++ arg

/-- The command word of a command (R101, R108). -/
def encode : Instr → Word
  | .rbtPush n => packWord 1 0 n
  | .rbtPop m => packWord 1 1 m
  | .rbtPopn n => packWord 1 2 n
  | .rbtClear => packWord 1 3 0
  | .rbtLen => packWord 1 4 0
  | .rbtIsempty => packWord 1 5 0
  | .rbtAvail => packWord 1 6 0
  | .rbtCap => packWord 1 7 0
  | .rbtIsfull => packWord 1 8 0
  | .rbrPush n => packWord 2 0 n
  | .rbrPop m => packWord 2 1 m
  | .rbrPopn n => packWord 2 2 n
  | .rbrClear => packWord 2 3 0
  | .rbrLen => packWord 2 4 0
  | .rbrIsempty => packWord 2 5 0
  | .rbrAvail => packWord 2 6 0
  | .rbrCap => packWord 2 7 0
  | .rbrIsfull => packWord 2 8 0
  | .ltxStart len => packWord 3 0 len
  | .ltxDone => packWord 3 1 0
  | .ltxFault => packWord 3 2 0
  | .ltxStatus => packWord 3 3 0
  | .ltxRetries => packWord 3 4 0
  | .lrxStart => packWord 4 0 0
  | .lrxRead => packWord 4 1 0
  | .lrxFault => packWord 4 2 0
  | .lrxStatus => packWord 4 3 0
  | .lrxRetries => packWord 4 4 0
  | .lrxIdle => packWord 4 5 0
  | .fqEnq code => packWord 5 0 code
  | .fqDeq => packWord 5 1 0
  | .encEncode v => packWord 6 0 v
  | .annTick => packWord 7 0 0

/-- One row of R108: `CW & mask = match`. -/
structure CommandRow where
  mnemonic : String
  mat : Word
  mask : Word
  deriving DecidableEq, Repr

/-- The mnemonic, match and mask columns of R108: mask `0xFFFF0000` for format FA, `0xFFFFFFFF` for FZ. -/
def commandTable : List CommandRow :=
  [⟨"RBT.PUSH", 0x10000000, 0xFFFF0000⟩, ⟨"RBT.POP", 0x11000000, 0xFFFF0000⟩, ⟨"RBT.POPN", 0x12000000, 0xFFFF0000⟩,
   ⟨"RBT.CLEAR", 0x13000000, 0xFFFFFFFF⟩, ⟨"RBT.LEN", 0x14000000, 0xFFFFFFFF⟩, ⟨"RBT.ISEMPTY", 0x15000000, 0xFFFFFFFF⟩,
   ⟨"RBT.AVAIL", 0x16000000, 0xFFFFFFFF⟩, ⟨"RBT.CAP", 0x17000000, 0xFFFFFFFF⟩, ⟨"RBT.ISFULL", 0x18000000, 0xFFFFFFFF⟩,
   ⟨"RBR.PUSH", 0x20000000, 0xFFFF0000⟩, ⟨"RBR.POP", 0x21000000, 0xFFFF0000⟩, ⟨"RBR.POPN", 0x22000000, 0xFFFF0000⟩,
   ⟨"RBR.CLEAR", 0x23000000, 0xFFFFFFFF⟩, ⟨"RBR.LEN", 0x24000000, 0xFFFFFFFF⟩, ⟨"RBR.ISEMPTY", 0x25000000, 0xFFFFFFFF⟩,
   ⟨"RBR.AVAIL", 0x26000000, 0xFFFFFFFF⟩, ⟨"RBR.CAP", 0x27000000, 0xFFFFFFFF⟩, ⟨"RBR.ISFULL", 0x28000000, 0xFFFFFFFF⟩,
   ⟨"LTX.START", 0x30000000, 0xFFFF0000⟩, ⟨"LTX.DONE", 0x31000000, 0xFFFFFFFF⟩, ⟨"LTX.FAULT", 0x32000000, 0xFFFFFFFF⟩,
   ⟨"LTX.STATUS", 0x33000000, 0xFFFFFFFF⟩, ⟨"LTX.RETRIES", 0x34000000, 0xFFFFFFFF⟩,
   ⟨"LRX.START", 0x40000000, 0xFFFFFFFF⟩, ⟨"LRX.READ", 0x41000000, 0xFFFFFFFF⟩, ⟨"LRX.FAULT", 0x42000000, 0xFFFFFFFF⟩,
   ⟨"LRX.STATUS", 0x43000000, 0xFFFFFFFF⟩, ⟨"LRX.RETRIES", 0x44000000, 0xFFFFFFFF⟩, ⟨"LRX.IDLE", 0x45000000, 0xFFFFFFFF⟩,
   ⟨"FQ.ENQ", 0x50000000, 0xFFFF0000⟩, ⟨"FQ.DEQ", 0x51000000, 0xFFFFFFFF⟩,
   ⟨"ENC.ENCODE", 0x60000000, 0xFFFF0000⟩, ⟨"ANN.TICK", 0x70000000, 0xFFFFFFFF⟩]

/-- The mnemonic of a command (R108). -/
def mnemonicOf : Instr → String
  | .rbtPush _ => "RBT.PUSH"
  | .rbtPop _ => "RBT.POP"
  | .rbtPopn _ => "RBT.POPN"
  | .rbtClear => "RBT.CLEAR"
  | .rbtLen => "RBT.LEN"
  | .rbtIsempty => "RBT.ISEMPTY"
  | .rbtAvail => "RBT.AVAIL"
  | .rbtCap => "RBT.CAP"
  | .rbtIsfull => "RBT.ISFULL"
  | .rbrPush _ => "RBR.PUSH"
  | .rbrPop _ => "RBR.POP"
  | .rbrPopn _ => "RBR.POPN"
  | .rbrClear => "RBR.CLEAR"
  | .rbrLen => "RBR.LEN"
  | .rbrIsempty => "RBR.ISEMPTY"
  | .rbrAvail => "RBR.AVAIL"
  | .rbrCap => "RBR.CAP"
  | .rbrIsfull => "RBR.ISFULL"
  | .ltxStart _ => "LTX.START"
  | .ltxDone => "LTX.DONE"
  | .ltxFault => "LTX.FAULT"
  | .ltxStatus => "LTX.STATUS"
  | .ltxRetries => "LTX.RETRIES"
  | .lrxStart => "LRX.START"
  | .lrxRead => "LRX.READ"
  | .lrxFault => "LRX.FAULT"
  | .lrxStatus => "LRX.STATUS"
  | .lrxRetries => "LRX.RETRIES"
  | .lrxIdle => "LRX.IDLE"
  | .fqEnq _ => "FQ.ENQ"
  | .fqDeq => "FQ.DEQ"
  | .encEncode _ => "ENC.ENCODE"
  | .annTick => "ANN.TICK"

/-- A command word matches a row of R108. -/
def CommandRow.matches (r : CommandRow) (cw : Word) : Bool := cw &&& r.mask == r.mat

/-- The command word of an opcode-table word `w` of `nbits` bits: the bits above `nbits` are zero. The command
word is always one 32-bit word carried whole (R111, R72). -/
def tableWord (nbits w : Nat) : Word := BitVec.ofNat 32 (w % 2 ^ nbits)

/-- The instruction the decoder reads from an opcode-table word; `none` where it is illegal. -/
def decodeTableWord (nbits w : Nat) : Option Instr :=
  match decode (tableWord nbits w) with
  | .ok i => some i
  | .error _ => none

end Sys2Proof
end

