-- ==== Sys2Proof/Config.lean ====
section
/-! DEFINITION. The configuration record of 00_scope.md R8, the symbols and pattern rows it is made of, the fault
taxonomy that `code_of` reads (44_fault_queue.md R244 to R246), and the open parameters as opaque constants. -/

namespace Sys2Proof

/-- A symbol of an optical sequence; the numbering is that of 30_encoding.md R114 (see `Machine.symbolCode`). -/
inductive Symbol where
  | dot
  | dash
  | gap
  | invalid
  deriving DecidableEq, Repr

/-- The two symbols a row of the digit pattern ROM may hold (45_code_encoder.md R262). -/
inductive Mark where
  | dot
  | dash
  deriving DecidableEq, Repr

/-- One row of the digit pattern ROM: five marks, position 0 played first (R262). -/
structure PatRow where
  m0 : Mark
  m1 : Mark
  m2 : Mark
  m3 : Mark
  m4 : Mark
  deriving DecidableEq, Repr

/-- The configuration record (R8): fixed before reset and never changed (70_reset_and_hazards.md R352).
`T_DASH` is no field: it is `3 * tDot` (see `Machine.onTime`). The pattern rows 4, 6, 7, 8 and 9, which the spec
marks as general knowledge, are fields as R262 allows. -/
structure Config where
  /-- `C`, capacity in bytes of each ring buffer. -/
  ringCap : Nat
  /-- `N`, size in bytes of each hardware transfer buffer. -/
  bufSize : Nat
  /-- `PKT`, the fixed USB packet size in bytes. -/
  pktSize : Nat
  /-- `QCAP`, capacity of the fault queue in entries. -/
  queueCap : Nat
  /-- `SEQMAX`, greatest length of an optical sequence in symbols. -/
  seqMax : Nat
  /-- `RETRY_CAP`, cap of each consecutive-fault counter. -/
  retryCap : Nat
  /-- `T_DOT`, LED on-time of a dot. -/
  tDot : Nat
  /-- `T_SYM`, pause after a dot or a dash. -/
  tSym : Nat
  /-- `T_WORD`, pause after a gap symbol. -/
  tWord : Nat
  /-- `PAT[4]`. -/
  pat4 : PatRow
  /-- `PAT[6]`. -/
  pat6 : PatRow
  /-- `PAT[7]`. -/
  pat7 : PatRow
  /-- `PAT[8]`. -/
  pat8 : PatRow
  /-- `PAT[9]`. -/
  pat9 : PatRow
  deriving DecidableEq, Repr

/-- OPEN parameter `PKT` less one: R8 bounds `PKT` by 1 and 65535 and prints no value. -/
opaque Config.openPkt : Fin 65535

/-- OPEN parameter `T_DOT` (R8). -/
opaque Config.openTDot : Nat

/-- OPEN parameter `T_SYM` (R8). -/
opaque Config.openTSym : Nat

/-- How far OPEN `T_WORD` lies above `T_SYM + 1`: R8 fixes only `T_WORD > T_SYM`. -/
opaque Config.openTWordExcess : Nat

/-- The configuration of the machine after reset: the values R8 prints (C 512, N 128, QCAP 256, SEQMAX 100,
RETRY_CAP 3), the open parameters where it prints none (log entry 1), and the pattern rows of R262, of which 4, 6, 7, 8
and 9 are PRESUMED (log entry 2). -/
def Config.standard : Config where
  ringCap := 512
  bufSize := 128
  pktSize := Config.openPkt.val + 1
  queueCap := 256
  seqMax := 100
  retryCap := 3
  tDot := Config.openTDot
  tSym := Config.openTSym
  tWord := Config.openTSym + 1 + Config.openTWordExcess
  pat4 := ⟨.dot, .dot, .dot, .dot, .dash⟩
  pat6 := ⟨.dash, .dot, .dot, .dot, .dot⟩
  pat7 := ⟨.dash, .dash, .dot, .dot, .dot⟩
  pat8 := ⟨.dash, .dash, .dash, .dot, .dot⟩
  pat9 := ⟨.dash, .dash, .dash, .dash, .dot⟩

/-- A RingBuffer fault: "overflow, underflow/empty" (R246), "the three distinct RingBuffer variants" (R245). No order
is implied in this taxonomy or in those that follow (R246). -/
inductive RingFault where
  | overflow
  | underflow
  | empty
  deriving DecidableEq, Repr

/-- A Link/DMA fault: "init, transfer, retry-limit-exceeded, buffer over/underflow, read/write failure" (R246), under the
names that band0 spells out where it does. -/
inductive LinkFault where
  | init
  | transfer
  | retryLimitExceeded
  | bufferOverflow
  | bufferUnderflow
  | readError
  | writeError
  deriving DecidableEq, Repr

/-- A Host-bridge/USB fault: "not-initialized, read/write failure, buffer overflow, init/poll failure" (R246). -/
inductive UsbFault where
  | notInitialized
  | readFailure
  | writeFailure
  | bufferOverflow
  | initFailure
  | pollFailure
  deriving DecidableEq, Repr

/-- A LED fault: "set/read failure" (R246). -/
inductive LedFault where
  | setFailure
  | readFailure
  deriving DecidableEq, Repr

/-- A fault of the central taxonomy, the image of R245's mapping. -/
inductive CentralFault where
  | usb
  | dma
  | led
  | bufferOverflow
  deriving DecidableEq, Repr

/-- A fault as its taxonomy names it, before the dispatcher's mapping (R246). The UART errors of R245 and the
Initialization faults of R246 have no variant names in the spec and carry a plain tag; the aggregate Device faults are
those of the central taxonomy, which R247 calls the central Device taxonomy (DEDUCED, log entry 14). -/
inductive SubsystemFault where
  | ringBuffer (f : RingFault)
  | dma (f : LinkFault)
  | usb (f : UsbFault)
  | led (f : LedFault)
  | uart (variant : Nat)
  | device (f : CentralFault)
  | initialization (variant : Nat)
  deriving DecidableEq, Repr

/-- OPEN parameter `code_of` (R244): total and otherwise unknown. It sees the fault and its image in the central
taxonomy, if it has one, so both readings of 90_conflicts.md C3 are instances of it (DESIGN CHOICE, log entry 14). -/
opaque Config.codeOf : SubsystemFault → Option CentralFault → Half

end Sys2Proof
end

