-- ==== Sys2Proof/Machine/State.lean ====
section
/-! DEFINITION. The state of the DPFIFO block (10_state.md R20 to R48), and beside it what a step of this model
reads and answers that the spec calls inputs, outputs and parameters: the configuration record, the agenda of
pending transactions and engine moves, the inputs of the current transaction, the outputs of the last step and the
staging area of HB.OUT. State is plain data. -/

namespace Sys2Proof.Machine

/-- The STATUS codes of a response (30_encoding.md R106); codes 8 to 14 are never produced. -/
inductive Status where
  | ok
  | bufferOverflow
  | bufferUnderflow
  | writeError
  | readError
  | retryLimitExceeded
  | queueFull
  | lengthError
  | illegal
  deriving DecidableEq, Repr

/-- The response to a command (R104, R105): STATUS, V, VALUE and the output payload DOUT. Its 32-bit word is
`responseWord`. -/
structure Response where
  status : Status
  valid : Bool
  value : Half
  dout : List Byte
  deriving DecidableEq, Repr

/-- The transfer status tag `LT.xs` (10_state.md R31). -/
inductive XferTag where
  | idle
  | active
  | complete
  | error
  deriving DecidableEq, Repr

/-- The annunciator state `ANN.st` (R41), a three-valued type as 30_encoding.md R113 advises. -/
inductive AnnState where
  | idle
  | signal
  | pause
  deriving DecidableEq, Repr

/-- Which ring buffer a command addresses: UNIT 1 or UNIT 2. -/
inductive Ring where
  | rbt
  | rbr
  deriving DecidableEq, Repr

/-- Which link direction a command or an engine move addresses: LTX or LRX. -/
inductive Dir where
  | tx
  | rx
  deriving DecidableEq, Repr

/-- A storage: the listed elements by index, addresses strictly rising, no listed element equal to what an
unlisted index reads as (`Store.wf`). -/
abbrev Store (α : Type) := List (Nat × α)

/-- A byte storage (`RB.mem`, `LT.hb`); an unlisted index reads as 0, the reset value of R60. -/
abbrev Memory := List Host.Cell

/-- A ring buffer (R21 to R24). -/
structure RingBuf where
  /-- `RB.mem`, indices 0 to C - 1 (R21). -/
  mem : Memory
  /-- `RB.wp`, the write cursor (R22). -/
  wp : Nat
  /-- `RB.rp`, the read cursor (R23). -/
  rp : Nat
  /-- `RB.cnt`, the number of bytes held (R24). -/
  cnt : Nat
  deriving DecidableEq, Repr

/-- A link direction (R30 to R35). -/
structure Link where
  /-- `LT.hb`, the hardware transfer buffer, indices 0 to N - 1 (R30). -/
  hb : Memory
  /-- `LT.xs`, the transfer status tag (R31). -/
  xs : XferTag
  /-- `LT.ff`, the fault flag (R32). -/
  ff : Bool
  /-- `LT.rc`, the consecutive-fault counter (R33). -/
  rc : Nat
  /-- `LT.rem`, the remaining-transfer count (R34). -/
  rem : Nat
  /-- `LT.tl`, the length of the transfer last started (R35). -/
  tl : Nat
  deriving DecidableEq, Repr

/-- The annunciator (R41 to R46). -/
structure Annunciator where
  /-- `ANN.st` (R41). -/
  st : AnnState
  /-- `ANN.loaded` (R42). -/
  loaded : Bool
  /-- `ANN.seq`, the sequence store, indices 0 to SEQMAX - 1; an unlisted index reads as DOT (R43, R60). -/
  seq : Store Symbol
  /-- `ANN.slen`, the number of valid symbols in `seq` (R43). -/
  slen : Nat
  /-- `ANN.idx`, the current symbol index (R44). -/
  idx : Nat
  /-- `ANN.tlast`, the last-transition timestamp (R45). -/
  tlast : Nat
  /-- `ANN.led`, the LED output register (R46). -/
  led : Bool
  deriving DecidableEq, Repr

/-- The inputs that accompany the current transaction (30_encoding.md R100; 10_state.md R50 to R52). The model's
own: the spec calls them inputs of a step (DESIGN CHOICE, log entry 3). -/
structure Port where
  /-- DIN, the input payload (R103). -/
  din : List Byte
  /-- `now` (R50). -/
  now : Nat
  /-- `line_idle` (R51). -/
  lineIdle : Bool
  /-- `start_ok` (R52). -/
  startOk : Bool
  deriving DecidableEq, Repr

/-- What a pseudo-operation HB.IN or HB.OUT returns (43_host_bridge.md R221, R222). -/
inductive BridgeResult where
  | ok (n : Nat)
  | bufferOverflow
  deriving DecidableEq, Repr

/-- How far an HB.OUT has come, with its staging area (43_host_bridge.md R222, R223). -/
inductive HostOut where
  /-- No HB.OUT is in progress. -/
  | idle
  /-- `data` has been popped and the endpoint has taken nothing yet. -/
  | staged (data : List Byte)
  /-- The endpoint has taken `accepted` bytes; `rest` is to be pushed back. -/
  | taken (accepted : Nat) (rest : List Byte)
  deriving DecidableEq, Repr

/-- How many bytes of the staging area an HB.OUT in progress uses: what was popped. -/
def HostOut.held : HostOut → Nat
  | .idle => 0
  | .staged data => data.length
  | .taken accepted rest => accepted + rest.length

/-- What the last step gave to the environment (70_reset_and_hazards.md R354, "returned to the environment"). The
level outputs `led` and `ev_*` are functions of the state (`ledOut`, `evTxComplete`, …) and not stored (DESIGN CHOICE,
log entry 6). -/
structure Outputs where
  /-- The response to the command the step ran, if it ran one. -/
  resp : Option Response
  /-- The byte ENG.TXBYTE emitted on `wire_out`, if the step was that move (R53, R173). -/
  wireOut : Option Byte
  /-- The bytes the USB endpoint took in the step (R222). -/
  toHost : List Byte
  /-- What the pseudo-operation returned, if one returned in the step. -/
  bridge : Option BridgeResult
  deriving DecidableEq, Repr

/-- One transaction of the command port (R100): the command word, the bytes offered as input payload and the
external inputs. -/
structure Transaction where
  cw : Word
  port : Port
  deriving DecidableEq, Repr

/-- What the environment makes happen next (00_scope.md R11; 70_reset_and_hazards.md R354): a command of some
issuer, a move of a DMA engine, reset, or a part of a pseudo-operation. -/
inductive Event where
  /-- A transaction on the command port (R100). -/
  | command (t : Transaction)
  /-- ENG.RXBYTE b (42_link_transfer.md R172). -/
  | engRxByte (b : Byte)
  /-- ENG.TXBYTE (R173). -/
  | engTxByte
  /-- ENG.COMPLETE d (R174). -/
  | engComplete (d : Dir)
  /-- ENG.FAULT d (R175). -/
  | engFault (d : Dir)
  /-- Reset of the block (70_reset_and_hazards.md R350). -/
  | blockReset
  /-- HB.IN with the endpoint's `enumerated` and `inbound` (43_host_bridge.md R221). -/
  | hbIn (enumerated : Bool) (inbound : Option (List Byte))
  /-- HB.OUT up to its POP (R222). -/
  | hbOut
  /-- HB.OUT's write to the endpoint, with its `accepted(n)` (R222). -/
  | hbOutWrite (accepted : Nat)
  /-- HB.OUT's re-enqueue of the unsent remainder (R222). -/
  | hbOutRequeue
  /-- DISPATCH of a fault (44_fault_queue.md R243). -/
  | dispatch (f : SubsystemFault)
  deriving DecidableEq, Repr

/-- The machine: the tuple `(RBT, RBR, LTX, LRX, FQ, ANN)` of R20, then the model's own fields. -/
structure State where
  rbt : RingBuf
  rbr : RingBuf
  ltx : Link
  lrx : Link
  /-- `FQ.q`, oldest entry first (R38). -/
  fq : List Half
  ann : Annunciator
  /-- The configuration record: a parameter of every step (R8, R20; DESIGN CHOICE, log entry 1). -/
  cfg : Config
  /-- The inputs of the current transaction. -/
  port : Port
  /-- The outputs of the last step. -/
  out : Outputs
  /-- The HB.OUT in progress and its staging area (R59 (f), R222; DESIGN CHOICE, log entry 13). -/
  staging : HostOut
  /-- What the environment will do, in the total order of 20_memory.md R81; the next event first (DESIGN CHOICE, log
  entry 3). -/
  agenda : List Event
  deriving DecidableEq, Repr

/-- Why the machine stops with a fault. No rule of the spec names one: every error is a response (60_exceptions.md
R310). -/
inductive Fault where
  /-- Raised by ENG.RXBYTE, ENG.TXBYTE and ANN.TICK where the index they compute lies outside the storage of N
  bytes or SEQMAX symbols (20_memory.md R70). Safe: no state that meets the invariants R36 and R48 raises it (log
  entry 10). -/
  | outsideStorage (index size : Nat)
  deriving DecidableEq, Repr

/-- Why the model refuses a step. -/
inductive Refusal where
  /-- Raised by an arm of `exec` whose instruction has no meaning yet; no arm raises it. Safe. -/
  | notModelled (mnemonic : String)
  /-- Raised by PUSH where the bytes offered as payload are not exactly ARG bytes: such a transaction "cannot be
  formed" (30_encoding.md R103; log entry 8). Safe. -/
  | payloadLength
  /-- Raised by ANN.TICK with `now < ANN.tlast`: "a model refuses it" (60_exceptions.md R330; U5; log entry 7). Safe. -/
  | timeBackwards
  /-- Raised by an engine move that is not enabled: the engine makes no such move (42_link_transfer.md R176; log
  entry 11). Safe. -/
  | engineMoveDisabled
  /-- Raised by HB.IN with a packet that is not of 1 to PKT bytes and by HB.OUT with `accepted(n) > n`: draws
  outside their sets (43_host_bridge.md R220; log entry 13). Safe. -/
  | drawOutOfRange
  /-- Raised by HB.OUT while another HB.OUT is in progress: one context issues it and the staging area is one
  (60_exceptions.md R325; R223; log entries 13 and 15). Unsafe where two contexts run it at once, or where a reset ends
  one. -/
  | bridgeBusy
  /-- Raised by HB.OUT's write and its re-enqueue when the HB.OUT in progress, if any, is not at that part (log entry
  13). Safe. -/
  | bridgeOutOfTurn
  deriving DecidableEq, Repr

/-- The outcome of an instruction, a move or a step. -/
abbrev Result := Host.Outcome State Fault Refusal

/-- A ring buffer after reset (R60). -/
def RingBuf.atReset : RingBuf where
  mem := []
  wp := 0
  rp := 0
  cnt := 0

/-- A link direction after reset (R60). -/
def Link.atReset : Link where
  hb := []
  xs := .idle
  ff := false
  rc := 0
  rem := 0
  tl := 0

/-- The annunciator after reset (R60). -/
def Annunciator.atReset : Annunciator where
  st := .idle
  loaded := false
  seq := []
  slen := 0
  idx := 0
  tlast := 0
  led := false

/-- No output: what a step that answers nothing leaves. -/
def Outputs.none : Outputs where
  resp := Option.none
  wireOut := Option.none
  toHost := []
  bridge := Option.none

/-- The transaction inputs before the first transaction; every command overwrites them before it runs. -/
def Port.idle : Port where
  din := []
  now := 0
  lineIdle := false
  startOk := false

/-- The machine right after reset (R60, 70_reset_and_hazards.md R350): every element of the block at the value of
R60, the standard configuration, and nothing pending: "after reset the block waits for its first command". -/
def State.reset : State where
  rbt := .atReset
  rbr := .atReset
  ltx := .atReset
  lrx := .atReset
  fq := []
  ann := .atReset
  cfg := .standard
  port := .idle
  out := .none
  staging := .idle
  agenda := []

end Sys2Proof.Machine
end

