-- ==== Sys2Proof/WellFormed.lean ====
section
/-! DEFINITION. The checks the spec puts on the configuration record (00_scope.md R8), the payload of a transaction (30_encoding.md R103) and the operand check of POPN (R109 check (5)). -/

namespace Sys2Proof

/-- The constraints of R8 on a configuration. -/
abbrev Config.wf (c : Config) : Prop :=
  (1 ≤ c.ringCap ∧ c.ringCap ≤ 65535) ∧ (1 ≤ c.bufSize ∧ c.bufSize ≤ 65535) ∧
  (1 ≤ c.pktSize ∧ c.pktSize ≤ 65535) ∧ c.queueCap = 256 ∧ 29 ≤ c.seqMax ∧ c.retryCap = 3 ∧ c.tSym < c.tWord

/-- The operand check that a command's own rule makes (R109 check (5)): POPN asks for at most N bytes. An
instruction that fails it is answered Illegal. -/
def Instr.wellFormed (c : Config) : Instr → Bool
  | .rbtPopn n => n.toNat ≤ c.bufSize
  | .rbrPopn n => n.toNat ≤ c.bufSize
  | .rbtPush _ | .rbtPop _ | .rbtClear | .rbtLen | .rbtIsempty | .rbtAvail | .rbtCap | .rbtIsfull => true
  | .rbrPush _ | .rbrPop _ | .rbrClear | .rbrLen | .rbrIsempty | .rbrAvail | .rbrCap | .rbrIsfull => true
  | .ltxStart _ | .ltxDone | .ltxFault | .ltxStatus | .ltxRetries => true
  | .lrxStart | .lrxRead | .lrxFault | .lrxStatus | .lrxRetries | .lrxIdle => true
  | .fqEnq _ | .fqDeq | .encEncode _ | .annTick => true

/-- How many payload bytes a command takes: ARG for PUSH, none for every other command (R103). -/
def Instr.payloadLength : Instr → Nat
  | .rbtPush n => n.toNat
  | .rbrPush n => n.toNat
  | .rbtPop _ | .rbtPopn _ | .rbtClear | .rbtLen | .rbtIsempty | .rbtAvail | .rbtCap | .rbtIsfull => 0
  | .rbrPop _ | .rbrPopn _ | .rbrClear | .rbrLen | .rbrIsempty | .rbrAvail | .rbrCap | .rbrIsfull => 0
  | .ltxStart _ | .ltxDone | .ltxFault | .ltxStatus | .ltxRetries => 0
  | .lrxStart | .lrxRead | .lrxFault | .lrxStatus | .lrxRetries | .lrxIdle => 0
  | .fqEnq _ | .fqDeq | .encEncode _ | .annTick => 0

/-- A transaction the port can form: the payload is exactly what the command takes (R103). -/
def Machine.Transaction.wellFormed (t : Machine.Transaction) : Bool :=
  match decode t.cw with
  | .ok i => t.port.din.length == i.payloadLength
  | .error _ => true

end Sys2Proof
end

