-- ==== Sys2Proof/Machine/Flags.lean ====
section
/-! DEFINITION. The flags, the status values and the numeric codes: the ring-buffer and queue flags (10_state.md R27,
R38), the output lines (R54), the tag, state, symbol and STATUS codes (30_encoding.md R106, R112 to R114), the
packed status values (42_link_transfer.md R180, 46_annunciator.md R281) and the response word (R104). -/

namespace Sys2Proof.Machine

/-- `EMPTY(RB)` (R27): read from `cnt` only. -/
def ringEmpty (rb : RingBuf) : Bool := rb.cnt == 0

/-- `FULL(RB)` (R27). -/
def ringFull (c : Config) (rb : RingBuf) : Bool := rb.cnt == c.ringCap

/-- `AVAIL(RB) = C - cnt`, in naturals (R27, R122). -/
def ringAvail (c : Config) (rb : RingBuf) : Nat := c.ringCap - rb.cnt

/-- `QEMPTY` (R38). -/
def queueEmpty (q : List Half) : Bool := q.length == 0

/-- `QFULL` (R38). -/
def queueFull (c : Config) (q : List Half) : Bool := q.length == c.queueCap

/-- Output `led` (R54). -/
def ledOut (s : State) : Bool := s.ann.led

/-- Event line `ev_tx_complete` (R54). -/
def evTxComplete (s : State) : Bool := s.ltx.xs == .complete

/-- Event line `ev_tx_error` (R54). -/
def evTxError (s : State) : Bool := s.ltx.xs == .error

/-- Event line `ev_rx_complete` (R54). -/
def evRxComplete (s : State) : Bool := s.lrx.xs == .complete

/-- Event line `ev_rx_error` (R54). -/
def evRxError (s : State) : Bool := s.lrx.xs == .error

/-- The numeric code of a transfer tag (R112). -/
def tagCode : XferTag → BitVec 2
  | .idle => 0
  | .active => 1
  | .complete => 2
  | .error => 3

/-- The numeric code of an annunciator state (R113). -/
def annCode : AnnState → BitVec 2
  | .idle => 0
  | .signal => 1
  | .pause => 2

/-- The numeric code of a symbol (R114). -/
def symbolCode : Symbol → BitVec 2
  | .dot => 0
  | .dash => 1
  | .gap => 2
  | .invalid => 3

/-- A symbol widened to a payload byte: bits 1:0, zeros above (R105, R130). -/
def symbolByte (x : Symbol) : Byte := (symbolCode x).setWidth 8

/-- The numeric STATUS code (R106). -/
def statusCode : Status → BitVec 4
  | .ok => 0
  | .bufferOverflow => 1
  | .bufferUnderflow => 2
  | .writeError => 3
  | .readError => 4
  | .retryLimitExceeded => 5
  | .queueFull => 6
  | .lengthError => 7
  | .illegal => 15

/-- A 16-bit VALUE with `flag` in bit 2 and `code` in bits 1:0: `{ff, xs}` (R180) and `{led, st}` (R281). -/
def packStatus (flag : Bool) (code : BitVec 2) : Half := (BitVec.ofBool flag ++ code).setWidth 16

/-- VALUE of STATUS: `{ff, xs}` (R180, R185). -/
def linkStatus (l : Link) : Half := packStatus l.ff (tagCode l.xs)

/-- VALUE of TICK: `{led, st}` (R281). -/
def annStatus (a : Annunciator) : Half := packStatus a.led (annCode a.st)

/-- A 16-bit VALUE that is 1 or 0 (R145, R148, R189). -/
def boolValue (b : Bool) : Half := if b then 1 else 0

/-- A 16-bit VALUE that is a natural of the block; each is at most 65535 (R8, R122). -/
def natValue (n : Nat) : Half := BitVec.ofNat 16 n

/-- The response word RW: STATUS 31:28, zero 27:17, V 16, VALUE 15:0 (R104). -/
def responseWord (r : Response) : Word :=
  statusCode r.status ++ (0 : BitVec 11) ++ BitVec.ofBool r.valid ++ r.value

end Sys2Proof.Machine
end

