-- ==== Sys2Proof/Machine/Operands.lean ====
section
/-! DEFINITION. Operand assembly (30_encoding.md R103, R107): ARG as a natural, the payload of a PUSH, and the
draws of the USB endpoint (43_host_bridge.md R220). There are no register operands and no addressing modes. -/

namespace Sys2Proof.Machine

/-- ARG as an unsigned natural in [0, 65535]: no scaling, no shift, no sign extension (R107). -/
def argNat (arg : Half) : Nat := arg.toNat

/-- The payload of a PUSH with ARG `n`: the bytes offered, where they are exactly `n` bytes (R103). -/
def payloadOf (n : Nat) (p : Port) : Option (List Byte) :=
  if p.din.length = n then some p.din else none

/-- POPN's operand check: `n <= N` (R109 check (5), 41_ringbuffer.md R142). -/
def popnAllowed (c : Config) (n : Nat) : Bool := n ≤ c.bufSize

/-- A packet the USB endpoint can supply: 1 to PKT bytes (R220). -/
def packetInRange (c : Config) (p : List Byte) : Bool := 1 ≤ p.length && p.length ≤ c.pktSize

/-- A number of bytes the endpoint can take of an `n`-byte write: a draw in [0, n] (R220). -/
def acceptedInRange (n a : Nat) : Bool := a ≤ n

end Sys2Proof.Machine
end

