-- ==== Sys2Proof/Machine/Ops.lean ====
section
/-! DEFINITION. The named operations: reads and writes of a storage in canonical form and runs of them (00_scope.md
R14), the ring-buffer operations (41_ringbuffer.md), the start and the restart of a transfer (42_link_transfer.md),
the units by name, and the response, with the report of an error as ONE operation (R14 `raise`). -/

namespace Sys2Proof.Machine

/-! ### Storages (20_memory.md R70; the canonical form is a DESIGN CHOICE, log entry 9) -/

/-- The element at index `a`; an unlisted index reads as `d`. -/
def Store.read {α : Type} (d : α) : Store α → Nat → α
  | [], _ => d
  | (k, v) :: m, a => if k = a then v else Store.read d m a

/-- Write `v` at index `a`, keeping the canonical form: writing `d` removes the entry. -/
def Store.write {α : Type} [DecidableEq α] (d : α) : Store α → Nat → α → Store α
  | [], a, v => if v = d then [] else [(a, v)]
  | (k, w) :: m, a, v =>
    if a < k then (if v = d then (k, w) :: m else (a, v) :: (k, w) :: m)
    else if a = k then (if v = d then m else (a, v) :: m)
    else (k, w) :: Store.write d m a v

/-- The canonical form: indices strictly rising, no entry equal to what an unlisted index reads as. -/
abbrev Store.wf {α : Type} (d : α) (m : Store α) : Prop :=
  m.Pairwise (fun p q => p.1 < q.1) ∧ ∀ p ∈ m, p.2 ≠ d

/-- Every listed index lies inside a storage of `n` elements. -/
abbrev Store.within {α : Type} (n : Nat) (m : Store α) : Prop := ∀ p ∈ m, p.1 < n

/-- `MemRead(U, a, n)`: the `n` elements from index `a` upward, no wrap (R14). -/
def Store.readRun {α : Type} (d : α) (m : Store α) (a : Nat) : Nat → List α
  | 0 => []
  | n + 1 => Store.read d m a :: Store.readRun d m (a + 1) n

/-- `MemWrite(U, a, |v|, v)`: the elements of `v` from index `a` upward, no wrap (R14). -/
def Store.writeRun {α : Type} [DecidableEq α] (d : α) (m : Store α) (a : Nat) : List α → Store α
  | [] => m
  | v :: vs => Store.writeRun d (Store.write d m a v) (a + 1) vs

/-- A byte of a byte storage. -/
def Memory.read (m : Memory) (a : Nat) : Byte := Store.read 0 m a

/-- Write a byte of a byte storage. -/
def Memory.write (m : Memory) (a : Nat) (v : Byte) : Memory := Store.write 0 m a v

/-- A run of bytes (R14 `MemRead`). -/
def Memory.readRun (m : Memory) (a n : Nat) : List Byte := Store.readRun 0 m a n

/-- Write a run of bytes (R14 `MemWrite`). -/
def Memory.writeRun (m : Memory) (a : Nat) (v : List Byte) : Memory := Store.writeRun 0 m a v

/-- The canonical form of a byte storage. -/
abbrev Memory.wf (m : Memory) : Prop := Store.wf (0 : Byte) m

/-! ### Ring buffers (41_ringbuffer.md) -/

/-- The FIFO content, oldest byte first (10_state.md R26). -/
def ringContent (c : Config) (rb : RingBuf) : List Byte :=
  (List.range rb.cnt).map fun i => Memory.read rb.mem ((rb.rp + i) % c.ringCap)

/-- The state change of a PUSH of `data` that fits: at most two contiguous runs, then the cursor and the count
(R140). -/
def ringAppend (c : Config) (rb : RingBuf) (data : List Byte) : RingBuf :=
  let n := data.length
  let run1 := min n (c.ringCap - rb.wp)
  let mem1 := Memory.writeRun rb.mem rb.wp (data.take run1)
  { rb with
    mem := Memory.writeRun mem1 0 (data.drop run1)
    wp := (rb.wp + n) % c.ringCap
    cnt := rb.cnt + n }

/-- How many bytes a POP of at most `m` bytes moves: `min(m, cnt)` (R141). -/
def ringTakeCount (rb : RingBuf) (m : Nat) : Nat := min m rb.cnt

/-- The bytes a POP of `k` bytes returns: at most two contiguous runs (R141). -/
def ringFront (c : Config) (rb : RingBuf) (k : Nat) : List Byte :=
  let run1 := min k (c.ringCap - rb.rp)
  Memory.readRun rb.mem rb.rp run1 ++ Memory.readRun rb.mem 0 (k - run1)

/-- The state change of a POP of `k` bytes: the read cursor and the count; storage is not written (R141). -/
def ringDrop (c : Config) (rb : RingBuf) (k : Nat) : RingBuf :=
  { rb with rp := (rb.rp + k) % c.ringCap, cnt := rb.cnt - k }

/-- The state after CLEAR, which is the reset state of the instance (R143, R60): every byte of storage zero. -/
def ringCleared : RingBuf := .atReset

/-! ### Link transfers (42_link_transfer.md) -/

/-- A DMA start or restart of `l`, asked of the engine: accepted it is Active, refused its fault flag is cleared and
it is Idle (R177, R182, R188). -/
def startLink (startOk : Bool) (l : Link) : Link :=
  if startOk then { l with xs := .active } else { l with ff := false, xs := .idle }

/-- `restart(LT)`: reload the remaining count from the length last started and start again (R188). -/
def restartLink (startOk : Bool) (l : Link) : Link :=
  startLink startOk { l with rem := l.tl }

/-! ### The units by name -/

/-- The ring buffer of a UNIT. -/
def State.ring (s : State) : Ring → RingBuf
  | .rbt => s.rbt
  | .rbr => s.rbr

/-- Replace the ring buffer of a UNIT. -/
def State.setRing (s : State) (r : Ring) (rb : RingBuf) : State :=
  match r with
  | .rbt => { s with rbt := rb }
  | .rbr => { s with rbr := rb }

/-- The link direction of a UNIT. -/
def State.link (s : State) : Dir → Link
  | .tx => s.ltx
  | .rx => s.lrx

/-- Replace the link direction of a UNIT. -/
def State.setLink (s : State) (d : Dir) (l : Link) : State :=
  match d with
  | .tx => { s with ltx := l }
  | .rx => { s with lrx := l }

/-! ### Responses and errors -/

/-- `respond(S, V, val, payload)`: the command's one response (R14, R104, R105). -/
def respond (s : State) (st : Status) (v : Bool) (val : Half) (payload : List Byte) : State :=
  { s with out := { s.out with resp := some ⟨st, v, val, payload⟩ } }

/-- `respond(OK, 1, val)` with no payload. -/
def answer (s : State) (val : Half) : State := respond s .ok true val []

/-- `respond(OK, 0, 0)`: success with no value. -/
def acknowledge (s : State) : State := respond s .ok false 0 []

/-- `raise E`: the report of an error, this block's only exception entry (R14, R9; 60_exceptions.md R310). The
response word is the whole report, V = 0 and VALUE = 0; the state keeps what the rule stated before the raise. -/
def raiseError (s : State) (e : Status) : State := respond s e false 0 []

end Sys2Proof.Machine
end

