-- ==== Sys2Proof/Machine/Encoder.lean ====
section
/-! DEFINITION. The code encoder (45_code_encoder.md R260 to R264) with its digit pattern ROM. -/

namespace Sys2Proof.Machine

/-- A mark as a symbol. -/
def markSymbol : Mark → Symbol
  | .dot => .dot
  | .dash => .dash

/-- A pattern row as the five symbols it plays. -/
def rowSymbols (r : PatRow) : List Symbol :=
  [markSymbol r.m0, markSymbol r.m1, markSymbol r.m2, markSymbol r.m3, markSymbol r.m4]

/-- The digit pattern ROM `PAT` (R262). Rows 0, 1, 2, 3 and 5 are band0's; the others are the configuration's. -/
def patRow (c : Config) (digit : Nat) : PatRow :=
  match digit with
  | 0 => ⟨.dash, .dash, .dash, .dash, .dash⟩
  | 1 => ⟨.dot, .dash, .dash, .dash, .dash⟩
  | 2 => ⟨.dot, .dot, .dash, .dash, .dash⟩
  | 3 => ⟨.dot, .dot, .dot, .dash, .dash⟩
  | 4 => c.pat4
  | 5 => ⟨.dot, .dot, .dot, .dot, .dot⟩
  | 6 => c.pat6
  | 7 => c.pat7
  | 8 => c.pat8
  | _ => c.pat9

/-- The divisor list (10_state.md R40). -/
def divisors : List Nat := [10000, 1000, 100, 10, 1]

/-- The decimal digit of `v` at weight `d` (R263, R124). -/
def digitAt (v d : Nat) : Nat := v / d % 10

/-- The loop of R263 over the remaining divisors: `out` is what is emitted so far, `started` whether a digit has
been; `none` is LengthError. -/
def encodeFrom (c : Config) (v : Nat) : List Nat → List Symbol → Bool → Option (List Symbol)
  | [], out, _ => some out
  | d :: ds, out, started =>
    if digitAt v d = 0 ∧ started = false ∧ d ≠ 1 then encodeFrom c v ds out started
    else if c.seqMax < out.length + (5 + if started then 1 else 0) then none
    else encodeFrom c v ds (out ++ (if started then [.gap] else []) ++ rowSymbols (patRow c (digitAt v d))) true

/-- `encode(v)` (R260, R263). -/
def encodeCode (c : Config) (v : Half) : Option (List Symbol) := encodeFrom c v.toNat divisors [] false

/-- ENC.ENCODE v (R261): one payload byte per symbol. -/
def execEncEncode (v : Half) (s : State) : Result :=
  match encodeCode s.cfg v with
  | some syms => .next (respond s .ok true (natValue syms.length) (syms.map symbolByte))
  | none => .next (raiseError s .lengthError)

end Sys2Proof.Machine
end

