-- ==== Sys2Proof/Machine/Annunciator.lean ====
section
/-! DEFINITION. The annunciator's one command, TICK (46_annunciator.md R280 to R288; the table of 40_common_laws.md
R128), with the duration table `TIM` (10_state.md R47). -/

namespace Sys2Proof.Machine

/-- `on(sym)`, the LED on-time of a dot or a dash; `T_DASH = 3 * T_DOT` (R47). -/
def onTime (c : Config) : Mark → Nat
  | .dot => c.tDot
  | .dash => 3 * c.tDot

/-- The symbol as a mark, where it is one that lights the LED. -/
def litMark : Symbol → Option Mark
  | .dot => some .dot
  | .dash => some .dash
  | .gap => none
  | .invalid => none

/-- `pause(sym)`, the LED off-time after a symbol; INVALID has none (R47). -/
def pauseTime (c : Config) : Symbol → Option Nat
  | .dot => some c.tSym
  | .dash => some c.tSym
  | .gap => some c.tWord
  | .invalid => none

/-- `discard()` (R287): `seq` and `tlast` are left as they are. -/
def discardSeq (a : Annunciator) : Annunciator :=
  { a with loaded := false, slen := 0, idx := 0, st := .idle, led := false }

/-- The OK response of a TICK: VALUE is `{led, st}` as they are after the branch (R281). -/
def respondTick (s : State) : Result := .next (answer s (annStatus s.ann))

/-- The annunciator with the sequence `syms` loaded: `st`, `led` and `tlast` as before (R282). -/
def loadSeq (a : Annunciator) (syms : List Symbol) : Annunciator :=
  { a with seq := Store.writeRun Symbol.dot a.seq 0 syms, slen := syms.length, idx := 0, loaded := true }

/-- Branch LOAD (R282). A code too long is consumed and dropped, and LengthError is reported as every error is, with
V = 0 and VALUE = 0 (60_exceptions.md R310; DEDUCED against the V = 1 of R281, log entry 12). -/
def tickLoad (s : State) : Result :=
  match s.fq with
  | [] => respondTick s
  | c :: q =>
    match encodeCode s.cfg c with
    | some syms => respondTick { s with fq := q, ann := loadSeq s.ann syms }
    | none => .next (raiseError { s with fq := q } .lengthError)

/-- Branch END (R283). -/
def tickEnd (s : State) : Result := respondTick { s with ann := discardSeq s.ann }

/-- Branch START on the current symbol (R284). -/
def startSymbol (now : Nat) (a : Annunciator) : Symbol → Annunciator
  | .dot => { a with led := true, st := .signal, tlast := now }
  | .dash => { a with led := true, st := .signal, tlast := now }
  | .gap => { a with st := .pause, tlast := now }
  | .invalid => discardSeq a

/-- Branch SIGNAL on the current symbol (R285). -/
def signalSymbol (c : Config) (now : Nat) (a : Annunciator) (sym : Symbol) : Annunciator :=
  match litMark sym with
  | none => discardSeq a
  | some m => if onTime c m ≤ now - a.tlast then { a with led := false, st := .pause, tlast := now } else a

/-- Branch PAUSE on the current symbol (R286). -/
def pauseSymbol (c : Config) (now : Nat) (a : Annunciator) (sym : Symbol) : Annunciator :=
  match pauseTime c sym with
  | none => discardSeq a
  | some t => if t ≤ now - a.tlast then { a with idx := a.idx + 1, st := .idle, tlast := now } else a

/-- A branch that reads `seq[idx]`: `f` says what becomes of the annunciator. An index outside the sequence store
faults. -/
def tickSymbol (f : Annunciator → Symbol → Annunciator) (s : State) : Result :=
  if s.ann.idx < s.cfg.seqMax then
    respondTick { s with ann := f s.ann (Store.read Symbol.dot s.ann.seq s.ann.idx) }
  else .fault (.outsideStorage s.ann.idx s.cfg.seqMax)

/-- The branches of TICK, one per TICK (R281, R280). -/
def tickBranch (s : State) : Result :=
  match s.ann.st with
  | .idle =>
    if s.ann.loaded = false then tickLoad s
    else if s.ann.slen ≤ s.ann.idx then tickEnd s
    else tickSymbol (startSymbol s.port.now) s
  | .signal => tickSymbol (signalSymbol s.cfg s.port.now) s
  | .pause => tickSymbol (pauseSymbol s.cfg s.port.now) s

/-- ANN.TICK (R281), under the premise `now >= tlast` (60_exceptions.md R330). -/
def execAnnTick (s : State) : Result :=
  if s.port.now < s.ann.tlast then .refused .timeBackwards else tickBranch s

end Sys2Proof.Machine
end

