-- ==== Sys2Proof/Machine/FaultQueue.lean ====
section
/-! DEFINITION. The fault-queue commands (44_fault_queue.md R240, R241). -/

namespace Sys2Proof.Machine

/-- FQ.ENQ code (R240): the code is dropped where the queue is full. -/
def enqueueCode (code : Half) (s : State) : Result :=
  if s.fq.length < s.cfg.queueCap then .next (acknowledge { s with fq := s.fq ++ [code] })
  else .next (raiseError s .queueFull)

/-- FQ.DEQ (R241): V tells a code whose value is 0 from no code. -/
def dequeueCode (s : State) : Result :=
  match s.fq with
  | [] => .next (acknowledge s)
  | c :: q => .next (answer { s with fq := q } c)

/-- FQ.ENQ code (R240). -/
def execFqEnq (code : Half) (s : State) : Result := enqueueCode code s
/-- FQ.DEQ (R241). -/
def execFqDeq (s : State) : Result := dequeueCode s

end Sys2Proof.Machine
end

