-- ==== Sys2Proof/Machine/LinkTransfer.lean ====
section
/-! DEFINITION. The link-transfer commands of units LTX and LRX (42_link_transfer.md R177 to R189). -/

namespace Sys2Proof.Machine

/-- The error that a refused start reports: WriteError for LTX, ReadError for LRX (R177, R182). -/
def startError : Dir → Status
  | .tx => .writeError
  | .rx => .readError

/-- Respond to a start that was asked with `start_ok`: `val` where accepted, the direction's error where refused. -/
def respondStart (s : State) (d : Dir) (v : Bool) (val : Half) : State :=
  if s.port.startOk then respond s .ok v val [] else raiseError s (startError d)

/-- How many bytes LTX.START moves: `min(min(len, N), cnt)` (R177). -/
def txCount (s : State) (len : Nat) : Nat := ringTakeCount s.rbt (min len s.cfg.bufSize)

/-- LTX after loading the first `m` bytes of RBT into `hb` from index 0, before the start is asked (R177). -/
def txLoaded (s : State) (m : Nat) : Link :=
  { s.ltx with hb := Memory.writeRun s.ltx.hb 0 (ringFront s.cfg s.rbt m), tl := m, rem := m }

/-- LTX.START len (R177): Illegal, then BufferUnderflow, then WriteError. -/
def startTx (len : Nat) (s : State) : Result :=
  if s.ltx.xs ≠ .idle then .next (raiseError s .illegal)
  else if s.cfg.bufSize < len ∧ s.rbt.cnt < len then .next (raiseError s .bufferUnderflow)
  else
    let m := txCount s len
    let s1 := s.setRing .rbt (ringDrop s.cfg s.rbt m)
    let s2 := s1.setLink .tx (startLink s.port.startOk (txLoaded s m))
    .next (respondStart s2 .tx true (natValue m))

/-- LTX.DONE (R178). -/
def doneTx (s : State) : Result :=
  if s.ltx.xs = .complete then .next (answer (s.setLink .tx { s.ltx with xs := .idle, rc := 0 }) 1)
  else .next (answer s 0)

/-- The FAULT command of a direction (R179, R184): bounded retry. This is the block's one recovery
(60_exceptions.md R322). -/
def faultLink (d : Dir) (s : State) : Result :=
  let l := s.link d
  if l.xs ≠ .error then .next (answer s 0)
  else if l.rc < s.cfg.retryCap then
    let l1 := restartLink s.port.startOk { l with ff := false, rc := l.rc + 1 }
    .next (respondStart (s.setLink d l1) d true (natValue (l.rc + 1)))
  else .next (raiseError (s.setLink d { l with ff := false, rc := 0, xs := .idle }) .retryLimitExceeded)

/-- STATUS (R180, R185). -/
def statusLink (d : Dir) (s : State) : Result := .next (answer s (linkStatus (s.link d)))

/-- RETRIES (R181, R186). -/
def retriesLink (d : Dir) (s : State) : Result := .next (answer s (natValue (s.link d).rc))

/-- LRX.START (R182): a receive sized to the full transfer buffer. -/
def startRx (s : State) : Result :=
  if s.lrx.xs ≠ .idle then .next (raiseError s .illegal)
  else
    let l := { s.lrx with tl := s.cfg.bufSize, rem := s.cfg.bufSize }
    .next (respondStart (s.setLink .rx (startLink s.port.startOk l)) .rx false 0)

/-- Bytes received so far: `N - rem` (R183). -/
def rxCount (s : State) : Nat := s.cfg.bufSize - s.lrx.rem

/-- LRX.READ of a transfer that is Active or Complete (R183): append the received bytes to RBR as a PUSH does, or
change nothing where they do not fit. -/
def harvestRx (s : State) : Result :=
  let r := rxCount s
  if ringAvail s.cfg s.rbr < r then .next (raiseError s .bufferOverflow)
  else
    let s1 := s.setRing .rbr (ringAppend s.cfg s.rbr (Memory.readRun s.lrx.hb 0 r))
    .next (answer (s1.setLink .rx { s.lrx with xs := .idle, rc := 0 }) (natValue r))

/-- LRX.READ (R183). -/
def readRx (s : State) : Result :=
  match s.lrx.xs with
  | .error => .next (raiseError s .readError)
  | .idle => .next (answer s 0)
  | .active => harvestRx s
  | .complete => harvestRx s

/-- LRX.IDLE (R189): the external input `line_idle`. -/
def idleRx (s : State) : Result := .next (answer s (boolValue s.port.lineIdle))

/-- LTX.START len (R177). -/
def execLtxStart (len : Half) (s : State) : Result := startTx (argNat len) s
/-- LTX.DONE (R178). -/
def execLtxDone (s : State) : Result := doneTx s
/-- LTX.FAULT (R179). -/
def execLtxFault (s : State) : Result := faultLink .tx s
/-- LTX.STATUS (R180). -/
def execLtxStatus (s : State) : Result := statusLink .tx s
/-- LTX.RETRIES (R181). -/
def execLtxRetries (s : State) : Result := retriesLink .tx s
/-- LRX.START (R182). -/
def execLrxStart (s : State) : Result := startRx s
/-- LRX.READ (R183). -/
def execLrxRead (s : State) : Result := readRx s
/-- LRX.FAULT (R184). -/
def execLrxFault (s : State) : Result := faultLink .rx s
/-- LRX.STATUS (R185). -/
def execLrxStatus (s : State) : Result := statusLink .rx s
/-- LRX.RETRIES (R186). -/
def execLrxRetries (s : State) : Result := retriesLink .rx s
/-- LRX.IDLE (R189). -/
def execLrxIdle (s : State) : Result := idleRx s

end Sys2Proof.Machine
end

