-- ==== Sys2Proof/Machine/Ring.lean ====
section
/-! DEFINITION. The ring-buffer commands of units RBT and RBR (41_ringbuffer.md R140 to R148): one shared operation
per rule, on the addressed instance, and one definition per command. -/

namespace Sys2Proof.Machine

/-- PUSH n (R140). The overflow test stands first and is made in naturals (R122). -/
def pushRing (r : Ring) (n : Nat) (s : State) : Result :=
  if ringAvail s.cfg (s.ring r) < n then .next (raiseError s .bufferOverflow)
  else match payloadOf n s.port with
    | none => .refused .payloadLength
    | some data => .next (answer (s.setRing r (ringAppend s.cfg (s.ring r) data)) (natValue n))

/-- Remove at most `m` bytes and answer with them (R141). -/
def takeRing (r : Ring) (m : Nat) (s : State) : State :=
  let k := ringTakeCount (s.ring r) m
  respond (s.setRing r (ringDrop s.cfg (s.ring r) k)) .ok true (natValue k) (ringFront s.cfg (s.ring r) k)

/-- POP m (R141): never fails. -/
def popRing (r : Ring) (m : Nat) (s : State) : Result := .next (takeRing r m s)

/-- POPN n (R142): Illegal for `n > N`, otherwise as POP n. -/
def popnRing (r : Ring) (n : Nat) (s : State) : Result :=
  if popnAllowed s.cfg n then .next (takeRing r n s) else .next (raiseError s .illegal)

/-- CLEAR (R143). -/
def clearRing (r : Ring) (s : State) : Result := .next (acknowledge (s.setRing r ringCleared))

/-- LEN (R144). -/
def lenRing (r : Ring) (s : State) : Result := .next (answer s (natValue (s.ring r).cnt))

/-- ISEMPTY (R145). -/
def isemptyRing (r : Ring) (s : State) : Result := .next (answer s (boolValue (ringEmpty (s.ring r))))

/-- AVAIL (R146). -/
def availRing (r : Ring) (s : State) : Result := .next (answer s (natValue (ringAvail s.cfg (s.ring r))))

/-- CAP (R147). -/
def capRing (s : State) : Result := .next (answer s (natValue s.cfg.ringCap))

/-- ISFULL (R148). -/
def isfullRing (r : Ring) (s : State) : Result := .next (answer s (boolValue (ringFull s.cfg (s.ring r))))

/-- RBT.PUSH n (R140). -/
def execRbtPush (n : Half) (s : State) : Result := pushRing .rbt (argNat n) s
/-- RBT.POP m (R141). -/
def execRbtPop (m : Half) (s : State) : Result := popRing .rbt (argNat m) s
/-- RBT.POPN n (R142). -/
def execRbtPopn (n : Half) (s : State) : Result := popnRing .rbt (argNat n) s
/-- RBT.CLEAR (R143). -/
def execRbtClear (s : State) : Result := clearRing .rbt s
/-- RBT.LEN (R144). -/
def execRbtLen (s : State) : Result := lenRing .rbt s
/-- RBT.ISEMPTY (R145). -/
def execRbtIsempty (s : State) : Result := isemptyRing .rbt s
/-- RBT.AVAIL (R146). -/
def execRbtAvail (s : State) : Result := availRing .rbt s
/-- RBT.CAP (R147). -/
def execRbtCap (s : State) : Result := capRing s
/-- RBT.ISFULL (R148). -/
def execRbtIsfull (s : State) : Result := isfullRing .rbt s

/-- RBR.PUSH n (R140). -/
def execRbrPush (n : Half) (s : State) : Result := pushRing .rbr (argNat n) s
/-- RBR.POP m (R141). -/
def execRbrPop (m : Half) (s : State) : Result := popRing .rbr (argNat m) s
/-- RBR.POPN n (R142). -/
def execRbrPopn (n : Half) (s : State) : Result := popnRing .rbr (argNat n) s
/-- RBR.CLEAR (R143). -/
def execRbrClear (s : State) : Result := clearRing .rbr s
/-- RBR.LEN (R144). -/
def execRbrLen (s : State) : Result := lenRing .rbr s
/-- RBR.ISEMPTY (R145). -/
def execRbrIsempty (s : State) : Result := isemptyRing .rbr s
/-- RBR.AVAIL (R146). -/
def execRbrAvail (s : State) : Result := availRing .rbr s
/-- RBR.CAP (R147). -/
def execRbrCap (s : State) : Result := capRing s
/-- RBR.ISFULL (R148). -/
def execRbrIsfull (s : State) : Result := isfullRing .rbr s

end Sys2Proof.Machine
end

