-- ==== Sys2Proof/Machine/Dispatch.lean ====
section
/-! DEFINITION. One arm per command of 30_encoding.md R108: which meaning runs it. -/

namespace Sys2Proof.Machine

open Sys2Proof

/-- Run one command on the state whose `port` holds its inputs. -/
def exec (i : Instr) (s : State) : Host.Outcome State Fault Refusal :=
  match i with
  | .rbtPush a => Sys2Proof.Machine.execRbtPush a s
  | .rbtPop a => Sys2Proof.Machine.execRbtPop a s
  | .rbtPopn a => Sys2Proof.Machine.execRbtPopn a s
  | .rbtClear => Sys2Proof.Machine.execRbtClear s
  | .rbtLen => Sys2Proof.Machine.execRbtLen s
  | .rbtIsempty => Sys2Proof.Machine.execRbtIsempty s
  | .rbtAvail => Sys2Proof.Machine.execRbtAvail s
  | .rbtCap => Sys2Proof.Machine.execRbtCap s
  | .rbtIsfull => Sys2Proof.Machine.execRbtIsfull s
  | .rbrPush a => Sys2Proof.Machine.execRbrPush a s
  | .rbrPop a => Sys2Proof.Machine.execRbrPop a s
  | .rbrPopn a => Sys2Proof.Machine.execRbrPopn a s
  | .rbrClear => Sys2Proof.Machine.execRbrClear s
  | .rbrLen => Sys2Proof.Machine.execRbrLen s
  | .rbrIsempty => Sys2Proof.Machine.execRbrIsempty s
  | .rbrAvail => Sys2Proof.Machine.execRbrAvail s
  | .rbrCap => Sys2Proof.Machine.execRbrCap s
  | .rbrIsfull => Sys2Proof.Machine.execRbrIsfull s
  | .ltxStart a => Sys2Proof.Machine.execLtxStart a s
  | .ltxDone => Sys2Proof.Machine.execLtxDone s
  | .ltxFault => Sys2Proof.Machine.execLtxFault s
  | .ltxStatus => Sys2Proof.Machine.execLtxStatus s
  | .ltxRetries => Sys2Proof.Machine.execLtxRetries s
  | .lrxStart => Sys2Proof.Machine.execLrxStart s
  | .lrxRead => Sys2Proof.Machine.execLrxRead s
  | .lrxFault => Sys2Proof.Machine.execLrxFault s
  | .lrxStatus => Sys2Proof.Machine.execLrxStatus s
  | .lrxRetries => Sys2Proof.Machine.execLrxRetries s
  | .lrxIdle => Sys2Proof.Machine.execLrxIdle s
  | .fqEnq a => Sys2Proof.Machine.execFqEnq a s
  | .fqDeq => Sys2Proof.Machine.execFqDeq s
  | .encEncode a => Sys2Proof.Machine.execEncEncode a s
  | .annTick => Sys2Proof.Machine.execAnnTick s

end Sys2Proof.Machine
end

