-- ==== Sys2Proof/Machine/CommandPort.lean ====
section
/-! DEFINITION. A transaction of the command port (30_encoding.md R100, R109), and how the words of
spec/opcode_table.json are presented as one. -/

namespace Sys2Proof.Machine

/-- Run a transaction: the inputs are sampled into `port`, the word is decoded and the command runs. A word that is
no command is answered Illegal, consumes no payload and changes no state of the block (R109). -/
def runTransaction (t : Transaction) (s : State) : Result :=
  let s1 := { s with port := t.port }
  match decode t.cw with
  | .ok i => exec i s1
  | .error _ => .next (raiseError s1 .illegal)

/-- The transaction that presents a bare command word: a payload of zero bytes as long as the command takes, `now`
at the last transition, an engine that accepts a start, a line that is not idle. -/
def bareTransaction (s : State) (cw : Word) : Transaction where
  cw := cw
  port :=
    { din := match decode cw with
        | .ok i => List.replicate i.payloadLength 0
        | .error _ => []
      now := s.ann.tlast
      lineIdle := false
      startOk := true }

end Sys2Proof.Machine
end

