-- ==== Sys2Proof/Machine/Engine.lean ====
section
/-! DEFINITION. The moves of the external DMA engines (42_link_transfer.md R172 to R176). A move that is not enabled
is refused: the engine makes none (R176; log entry 11). -/

namespace Sys2Proof.Machine

/-- The output of a move that emits `b` on `wire_out` (R53). -/
def emitWire (s : State) (b : Byte) : State := { s with out := { s.out with wireOut := some b } }

/-- LRX after ENG.RXBYTE b (R172). -/
def rxStored (c : Config) (b : Byte) (l : Link) : Link :=
  { l with hb := Memory.write l.hb (c.bufSize - l.rem) b, rem := l.rem - 1 }

/-- ENG.RXBYTE b (R172). -/
def moveRxByte (b : Byte) (s : State) : Result :=
  if s.lrx.xs = .active ∧ 0 < s.lrx.rem then
    if s.cfg.bufSize - s.lrx.rem < s.cfg.bufSize then .next (s.setLink .rx (rxStored s.cfg b s.lrx))
    else .fault (.outsideStorage (s.cfg.bufSize - s.lrx.rem) s.cfg.bufSize)
  else .refused .engineMoveDisabled

/-- ENG.TXBYTE (R173). -/
def moveTxByte (s : State) : Result :=
  if s.ltx.xs = .active ∧ 0 < s.ltx.rem then
    if s.ltx.tl - s.ltx.rem < s.cfg.bufSize then
      .next (emitWire (s.setLink .tx { s.ltx with rem := s.ltx.rem - 1 })
        (Memory.read s.ltx.hb (s.ltx.tl - s.ltx.rem)))
    else .fault (.outsideStorage (s.ltx.tl - s.ltx.rem) s.cfg.bufSize)
  else .refused .engineMoveDisabled

/-- ENG.COMPLETE d (R174). -/
def moveComplete (d : Dir) (s : State) : Result :=
  if (s.link d).xs = .active ∧ (s.link d).rem = 0 then .next (s.setLink d { s.link d with xs := .complete })
  else .refused .engineMoveDisabled

/-- ENG.FAULT d (R175): at any remaining count. -/
def moveFault (d : Dir) (s : State) : Result :=
  if (s.link d).xs = .active then .next (s.setLink d { s.link d with xs := .error, ff := true })
  else .refused .engineMoveDisabled

/-- Reset of the block (70_reset_and_hazards.md R350): every element of R20 at its reset value; the configuration
and what lies outside the block are not touched, an HB.OUT in progress among it, which then has to end before the next
one (DESIGN CHOICE, log entry 15). -/
def blockReset (s : State) : State :=
  { s with
    rbt := .atReset
    rbr := .atReset
    ltx := .atReset
    lrx := .atReset
    fq := []
    ann := .atReset }

end Sys2Proof.Machine
end

