-- ==== Sys2Proof/Machine/HostBridge.lean ====
section
/-! DEFINITION. The pseudo-operations HB.IN, HB.OUT (43_host_bridge.md R220 to R223) and DISPATCH (44_fault_queue.md
R243 to R245), each expanded to commands of the block. -/

namespace Sys2Proof.Machine

/-- What a pseudo-operation returns. -/
def returnBridge (s : State) (b : BridgeResult) : State := { s with out := { s.out with bridge := some b } }

/-- Issue a command with the payload `din`; its other inputs are not sampled by PUSH, POP and ENQ. -/
def issue (i : Instr) (din : List Byte) (s : State) : Result := exec i { s with port := { s.port with din := din } }

/-- Issue a PUSH of `data` and return `n` where it was admitted, BufferOverflow where it was refused (R221, R222). -/
def issuePush (i : Instr) (data : List Byte) (n : Nat) (s : State) : Result :=
  match issue i data s with
  | .next s1 =>
    match s1.out.resp with
    | some r => if r.status = .ok then .next (returnBridge s1 (.ok n)) else .next (returnBridge s1 .bufferOverflow)
    | none => .next s1
  | .fault e => .fault e
  | .refused e => .refused e

/-- HB.IN (R221): reject-whole, exactly PUSH's all-or-nothing rule. One step: reading the packet changes nothing that
can be seen before the PUSH (log entry 13). -/
def hostIn (enumerated : Bool) (inbound : Option (List Byte)) (s : State) : Result :=
  if enumerated = false then .next (returnBridge s (.ok 0))
  else match inbound with
    | none => .next (returnBridge s (.ok 0))
    | some p =>
      if packetInRange s.cfg p then issuePush (.rbtPush (natValue p.length)) p p.length s
      else .refused .drawOutOfRange

/-- HB.OUT's POP (R222): at most PKT bytes of RBR into the staging area. While an HB.OUT is in progress another is
refused, also where a reset of the block has come in between (DESIGN CHOICE, log entries 13 and 15). -/
def hostOutPop (s : State) : Result :=
  match s.staging with
  | .idle =>
    match issue (.rbrPop (natValue s.cfg.pktSize)) [] s with
    | .next s1 =>
      match s1.out.resp with
      | some r =>
        if r.dout = [] then .next (returnBridge s1 (.ok 0)) else .next { s1 with staging := .staged r.dout }
      | none => .next s1
    | .fault e => .fault e
    | .refused e => .refused e
  | .staged _ => .refused .bridgeBusy
  | .taken _ _ => .refused .bridgeBusy

/-- HB.OUT's write (R222): the endpoint takes `a` of the staged bytes, at a step of its own, so that commands may fall
before it and after it (95_test_vectors.md P4 steps 8 to 10; DESIGN CHOICE, log entry 13). With all of them taken HB.OUT
returns. -/
def hostOutWrite (a : Nat) (s : State) : Result :=
  match s.staging with
  | .staged data =>
    if acceptedInRange data.length a then
      let s1 := { s with out := { s.out with toHost := data.take a } }
      if a < data.length then .next { s1 with staging := .taken a (data.drop a) }
      else .next (returnBridge { s1 with staging := .idle } (.ok a))
    else .refused .drawOutOfRange
  | .idle => .refused .bridgeOutOfTurn
  | .taken _ _ => .refused .bridgeOutOfTurn

/-- HB.OUT's re-enqueue (R222): the unsent remainder goes to the tail of RBR as it is by then, or is lost. -/
def hostOutRequeue (s : State) : Result :=
  match s.staging with
  | .taken a rest => issuePush (.rbrPush (natValue rest.length)) rest a { s with staging := .idle }
  | .idle => .refused .bridgeOutOfTurn
  | .staged _ => .refused .bridgeOutOfTurn

/-- The mapping into the central taxonomy (R245): UART errors are DMA errors, every ring-buffer variant is
BufferOverflow. A Device fault is in it already; R245 maps no Initialization fault (DEDUCED, log entry 14). -/
def centralFault : SubsystemFault → Option CentralFault
  | .ringBuffer _ => some .bufferOverflow
  | .dma _ => some .dma
  | .usb _ => some .usb
  | .led _ => some .led
  | .uart _ => some .dma
  | .device f => some f
  | .initialization _ => none

/-- DISPATCH f (R243): enqueue its code; a full queue is not propagated. -/
def dispatchFault (f : SubsystemFault) (s : State) : Result :=
  issue (.fqEnq (Config.codeOf f (centralFault f))) [] s

end Sys2Proof.Machine
end

