-- ==== Sys2Proof/Machine/Step.lean ====
section
/-! DEFINITION. One step: the next event of the agenda, in the total order of 20_memory.md R81. -/

namespace Sys2Proof.Machine

/-- The state an event runs on: the rest of the agenda pending, the outputs of the step before cleared. -/
def State.begin (s : State) (rest : List Event) : State := { s with agenda := rest, out := .none }

/-- The effect of one event (00_scope.md R11). -/
def runEvent (e : Event) (s : State) : Result :=
  match e with
  | .command t => runTransaction t s
  | .engRxByte b => moveRxByte b s
  | .engTxByte => moveTxByte s
  | .engComplete d => moveComplete d s
  | .engFault d => moveFault d s
  | .blockReset => .next (Sys2Proof.Machine.blockReset s)
  | .hbIn enumerated inbound => hostIn enumerated inbound s
  | .hbOut => hostOutPop s
  | .hbOutWrite a => hostOutWrite a s
  | .hbOutRequeue => hostOutRequeue s
  | .dispatch f => dispatchFault f s

/-- One step. With nothing pending the block waits: it "takes no step without a command or an engine move" (R11;
DEDUCED, log entry 4). -/
def step (s : State) : Host.Outcome State Fault Refusal :=
  match s.agenda with
  | [] => .next s
  | e :: rest => runEvent e (s.begin rest)

/-- Present an opcode-table word as the next transaction: nothing but the head of the agenda changes
(DESIGN CHOICE, log entry 5). -/
def State.withFetchWord (s : State) (nbits w : Nat) : State :=
  { s with agenda := .command (bareTransaction s (tableWord nbits w)) :: s.agenda }

end Sys2Proof.Machine
end

