-- ==== Sys2Proof/Laws/PerInstr.lean ====
section
/-! SUPPORT. Statements made per instruction: each command's word matches its own row of 30_encoding.md R108. -/

namespace Sys2Proof

/-- The fields of a packed command word (R101). -/
theorem packWord_fields (unit op : BitVec 4) (arg : Half) :
    cwUnit (packWord unit op arg) = unit ∧ cwOp (packWord unit op arg) = op ∧
    cwRsv (packWord unit op arg) = 0 ∧ cwArg (packWord unit op arg) = arg := by
  refine ⟨?_, ?_, ?_, ?_⟩ <;>
  · ext i hi
    simp only [packWord, cwUnit, cwOp, cwRsv, cwArg, BitVec.getElem_extractLsb', BitVec.getLsbD_append]
    interval_cases i <;> simp [← BitVec.getLsbD_eq_getElem]

/-- Masking off ARG leaves UNIT, OP and the zero RSV. -/
theorem packWord_and_mask (unit op : BitVec 4) (arg : Half) :
    packWord unit op arg &&& 0xFFFF0000#32 = packWord unit op 0 := by
  apply BitVec.eq_of_getLsbD_eq
  intro i hi
  simp only [packWord, BitVec.getLsbD_and, BitVec.getLsbD_append]
  interval_cases i <;> simp

end Sys2Proof

namespace Sys2Proof.Laws.TableRow

/-- The command's word matches a row of R108 under the command's own mnemonic. -/
def Statement (i : Instr) : Prop :=
  ∃ r ∈ commandTable, r.mnemonic = mnemonicOf i ∧ r.matches (encode i) = true

theorem rbtPush (a : Half) : Statement (.rbtPush a) :=
  ⟨⟨"RBT.PUSH", 0x10000000, 0xFFFF0000⟩, by simp [commandTable], rfl, by simp [CommandRow.matches, encode, packWord_and_mask]; decide⟩

theorem rbtPop (a : Half) : Statement (.rbtPop a) :=
  ⟨⟨"RBT.POP", 0x11000000, 0xFFFF0000⟩, by simp [commandTable], rfl, by simp [CommandRow.matches, encode, packWord_and_mask]; decide⟩

theorem rbtPopn (a : Half) : Statement (.rbtPopn a) :=
  ⟨⟨"RBT.POPN", 0x12000000, 0xFFFF0000⟩, by simp [commandTable], rfl, by simp [CommandRow.matches, encode, packWord_and_mask]; decide⟩

theorem rbtClear : Statement .rbtClear :=
  ⟨⟨"RBT.CLEAR", 0x13000000, 0xFFFFFFFF⟩, by simp [commandTable], rfl, by decide⟩

theorem rbtLen : Statement .rbtLen :=
  ⟨⟨"RBT.LEN", 0x14000000, 0xFFFFFFFF⟩, by simp [commandTable], rfl, by decide⟩

theorem rbtIsempty : Statement .rbtIsempty :=
  ⟨⟨"RBT.ISEMPTY", 0x15000000, 0xFFFFFFFF⟩, by simp [commandTable], rfl, by decide⟩

theorem rbtAvail : Statement .rbtAvail :=
  ⟨⟨"RBT.AVAIL", 0x16000000, 0xFFFFFFFF⟩, by simp [commandTable], rfl, by decide⟩

theorem rbtCap : Statement .rbtCap :=
  ⟨⟨"RBT.CAP", 0x17000000, 0xFFFFFFFF⟩, by simp [commandTable], rfl, by decide⟩

theorem rbtIsfull : Statement .rbtIsfull :=
  ⟨⟨"RBT.ISFULL", 0x18000000, 0xFFFFFFFF⟩, by simp [commandTable], rfl, by decide⟩

theorem rbrPush (a : Half) : Statement (.rbrPush a) :=
  ⟨⟨"RBR.PUSH", 0x20000000, 0xFFFF0000⟩, by simp [commandTable], rfl, by simp [CommandRow.matches, encode, packWord_and_mask]; decide⟩

theorem rbrPop (a : Half) : Statement (.rbrPop a) :=
  ⟨⟨"RBR.POP", 0x21000000, 0xFFFF0000⟩, by simp [commandTable], rfl, by simp [CommandRow.matches, encode, packWord_and_mask]; decide⟩

theorem rbrPopn (a : Half) : Statement (.rbrPopn a) :=
  ⟨⟨"RBR.POPN", 0x22000000, 0xFFFF0000⟩, by simp [commandTable], rfl, by simp [CommandRow.matches, encode, packWord_and_mask]; decide⟩

theorem rbrClear : Statement .rbrClear :=
  ⟨⟨"RBR.CLEAR", 0x23000000, 0xFFFFFFFF⟩, by simp [commandTable], rfl, by decide⟩

theorem rbrLen : Statement .rbrLen :=
  ⟨⟨"RBR.LEN", 0x24000000, 0xFFFFFFFF⟩, by simp [commandTable], rfl, by decide⟩

theorem rbrIsempty : Statement .rbrIsempty :=
  ⟨⟨"RBR.ISEMPTY", 0x25000000, 0xFFFFFFFF⟩, by simp [commandTable], rfl, by decide⟩

theorem rbrAvail : Statement .rbrAvail :=
  ⟨⟨"RBR.AVAIL", 0x26000000, 0xFFFFFFFF⟩, by simp [commandTable], rfl, by decide⟩

theorem rbrCap : Statement .rbrCap :=
  ⟨⟨"RBR.CAP", 0x27000000, 0xFFFFFFFF⟩, by simp [commandTable], rfl, by decide⟩

theorem rbrIsfull : Statement .rbrIsfull :=
  ⟨⟨"RBR.ISFULL", 0x28000000, 0xFFFFFFFF⟩, by simp [commandTable], rfl, by decide⟩

theorem ltxStart (a : Half) : Statement (.ltxStart a) :=
  ⟨⟨"LTX.START", 0x30000000, 0xFFFF0000⟩, by simp [commandTable], rfl, by simp [CommandRow.matches, encode, packWord_and_mask]; decide⟩

theorem ltxDone : Statement .ltxDone :=
  ⟨⟨"LTX.DONE", 0x31000000, 0xFFFFFFFF⟩, by simp [commandTable], rfl, by decide⟩

theorem ltxFault : Statement .ltxFault :=
  ⟨⟨"LTX.FAULT", 0x32000000, 0xFFFFFFFF⟩, by simp [commandTable], rfl, by decide⟩

theorem ltxStatus : Statement .ltxStatus :=
  ⟨⟨"LTX.STATUS", 0x33000000, 0xFFFFFFFF⟩, by simp [commandTable], rfl, by decide⟩

theorem ltxRetries : Statement .ltxRetries :=
  ⟨⟨"LTX.RETRIES", 0x34000000, 0xFFFFFFFF⟩, by simp [commandTable], rfl, by decide⟩

theorem lrxStart : Statement .lrxStart :=
  ⟨⟨"LRX.START", 0x40000000, 0xFFFFFFFF⟩, by simp [commandTable], rfl, by decide⟩

theorem lrxRead : Statement .lrxRead :=
  ⟨⟨"LRX.READ", 0x41000000, 0xFFFFFFFF⟩, by simp [commandTable], rfl, by decide⟩

theorem lrxFault : Statement .lrxFault :=
  ⟨⟨"LRX.FAULT", 0x42000000, 0xFFFFFFFF⟩, by simp [commandTable], rfl, by decide⟩

theorem lrxStatus : Statement .lrxStatus :=
  ⟨⟨"LRX.STATUS", 0x43000000, 0xFFFFFFFF⟩, by simp [commandTable], rfl, by decide⟩

theorem lrxRetries : Statement .lrxRetries :=
  ⟨⟨"LRX.RETRIES", 0x44000000, 0xFFFFFFFF⟩, by simp [commandTable], rfl, by decide⟩

theorem lrxIdle : Statement .lrxIdle :=
  ⟨⟨"LRX.IDLE", 0x45000000, 0xFFFFFFFF⟩, by simp [commandTable], rfl, by decide⟩

theorem fqEnq (a : Half) : Statement (.fqEnq a) :=
  ⟨⟨"FQ.ENQ", 0x50000000, 0xFFFF0000⟩, by simp [commandTable], rfl, by simp [CommandRow.matches, encode, packWord_and_mask]; decide⟩

theorem fqDeq : Statement .fqDeq :=
  ⟨⟨"FQ.DEQ", 0x51000000, 0xFFFFFFFF⟩, by simp [commandTable], rfl, by decide⟩

theorem encEncode (a : Half) : Statement (.encEncode a) :=
  ⟨⟨"ENC.ENCODE", 0x60000000, 0xFFFF0000⟩, by simp [commandTable], rfl, by simp [CommandRow.matches, encode, packWord_and_mask]; decide⟩

theorem annTick : Statement .annTick :=
  ⟨⟨"ANN.TICK", 0x70000000, 0xFFFFFFFF⟩, by simp [commandTable], rfl, by decide⟩

end Sys2Proof.Laws.TableRow
end

