-- ==== Sys2Proof/Laws/Memory.lean ====
section
/-! SUPPORT. The laws of a storage in canonical form: a read after a write, the runs, and that every operation keeps
the form and the range. -/

namespace Sys2Proof.Machine

variable {α : Type} [DecidableEq α] {d v : α} {m : Store α} {a b n : Nat}

/-! ### One element -/

omit [DecidableEq α] in
theorem Store.read_of_lt (h : ∀ p ∈ m, a < p.1) : Store.read d m a = d := by
  induction m with
  | nil => rfl
  | cons p m ih =>
    obtain ⟨k, w⟩ := p
    have hk : a < k := h (k, w) (by simp)
    simp only [Store.read, if_neg (Nat.ne_of_gt hk)]
    exact ih fun q hq => h q (by simp [hq])

omit [DecidableEq α] in
theorem Store.wf_tail {k : Nat} {w : α} (h : Store.wf d ((k, w) :: m)) : Store.wf d m :=
  ⟨(List.pairwise_cons.mp h.1).2, fun p hp => h.2 p (by simp [hp])⟩

omit [DecidableEq α] in
theorem Store.wf_head_lt {k : Nat} {w : α} (h : Store.wf d ((k, w) :: m)) : ∀ p ∈ m, k < p.1 :=
  fun p hp => (List.pairwise_cons.mp h.1).1 p hp

/-- A read after a write: the value written at its index, every other index as before. -/
theorem Store.read_write (h : Store.wf d m) :
    Store.read d (Store.write d m a v) b = if b = a then v else Store.read d m b := by
  induction m with
  | nil =>
    by_cases hv : v = d <;> by_cases hb : b = a <;> simp [Store.write, Store.read, hv, hb]
    exact fun h => absurd h.symm hb
  | cons p m ih =>
    obtain ⟨k, w⟩ := p
    have hlt := Store.wf_head_lt h
    have ih := ih (Store.wf_tail h)
    simp only [Store.write]
    split
    · rename_i hak
      have hnone : Store.read d ((k, w) :: m) a = d :=
        Store.read_of_lt fun q hq => by
          rcases List.mem_cons.mp hq with rfl | hq
          · exact hak
          · exact Nat.lt_trans hak (hlt q hq)
      by_cases hv : v = d
      · by_cases hb : b = a
        · subst hb; simpa [hv] using hnone
        · simp [hv, hb]
      · by_cases hb : b = a
        · simp [hv, hb, Store.read]
        · simp [hv, hb, Store.read, Ne.symm hb]
    · split
      · rename_i _ hak
        subst hak
        by_cases hv : v = d
        · by_cases hb : b = a
          · subst hb; simpa [hv] using Store.read_of_lt hlt
          · simp [hv, hb, Store.read, Ne.symm hb]
        · by_cases hb : b = a
          · simp [hv, hb, Store.read]
          · simp [hv, hb, Store.read, Ne.symm hb]
      · rename_i _ hak
        simp only [Store.read, ih]
        by_cases hb : b = a
        · simp [hb, Ne.symm hak]
        · simp [hb]

theorem Store.mem_write {p : Nat × α} (hp : p ∈ Store.write d m a v) : p ∈ m ∨ (p = (a, v) ∧ v ≠ d) := by
  induction m with
  | nil =>
    by_cases hv : v = d
    · simp [Store.write, hv] at hp
    · simp only [Store.write, if_neg hv, List.mem_singleton] at hp; exact .inr ⟨hp, hv⟩
  | cons q m ih =>
    obtain ⟨k, w⟩ := q
    by_cases hv : v = d <;> by_cases h1 : a < k <;> by_cases h2 : a = k <;>
      simp only [Store.write, hv, h1, h2, if_true, if_false, lt_irrefl, List.mem_cons] at hp ⊢ <;> grind

/-- A write keeps the canonical form. -/
theorem Store.write_wf (h : Store.wf d m) : Store.wf d (Store.write d m a v) := by
  refine ⟨?_, fun p hp => ?_⟩
  · induction m with
    | nil => by_cases hv : v = d <;> simp [Store.write, hv]
    | cons q m ih =>
      obtain ⟨k, w⟩ := q
      have hlt := Store.wf_head_lt h
      have ht := Store.wf_tail h
      simp only [Store.write]
      split
      · split
        · exact h.1
        · refine List.pairwise_cons.mpr ⟨fun q hq => ?_, h.1⟩
          rcases List.mem_cons.mp hq with rfl | hq
          · assumption
          · exact Nat.lt_trans ‹_› (hlt q hq)
      · split
        · rename_i _ hak
          split
          · exact ht.1
          · subst hak
            exact List.pairwise_cons.mpr ⟨hlt, ht.1⟩
        · refine List.pairwise_cons.mpr ⟨fun q hq => ?_, ih ht⟩
          rcases Store.mem_write hq with hq | ⟨rfl, -⟩
          · exact hlt q hq
          · show k < a
            omega
  · rcases Store.mem_write hp with hp | ⟨rfl, hv⟩
    · exact h.2 p hp
    · exact hv

/-- A write inside the range keeps every listed index inside it. -/
theorem Store.write_within (h : Store.within n m) (ha : a < n) : Store.within n (Store.write d m a v) := by
  intro p hp
  rcases Store.mem_write hp with hp | ⟨rfl, -⟩
  · exact h p hp
  · exact ha

/-! ### Runs -/

omit [DecidableEq α] in
@[simp] theorem Store.readRun_length (m : Store α) (a n : Nat) : (Store.readRun d m a n).length = n := by
  induction n generalizing a with
  | zero => rfl
  | succ n ih => simp [Store.readRun, ih]

omit [DecidableEq α] in
theorem Store.readRun_getElem? (m : Store α) (a n i : Nat) :
    (Store.readRun d m a n)[i]? = if i < n then some (Store.read d m (a + i)) else none := by
  induction n generalizing a i with
  | zero => simp [Store.readRun]
  | succ n ih =>
    cases i with
    | zero => simp [Store.readRun]
    | succ i => simp [Store.readRun, ih, Nat.add_assoc, Nat.add_comm 1 i]

omit [DecidableEq α] in
/-- `MemRead` as a map over the offsets. -/
theorem Store.readRun_eq_map (m : Store α) (a n : Nat) :
    Store.readRun d m a n = (List.range n).map fun i => Store.read d m (a + i) := by
  apply List.ext_getElem?
  intro i
  rw [Store.readRun_getElem?]
  by_cases hi : i < n <;> simp [hi]

theorem Store.writeRun_wf (h : Store.wf d m) (vs : List α) : Store.wf d (Store.writeRun d m a vs) := by
  induction vs generalizing m a with
  | nil => exact h
  | cons v vs ih => exact ih (Store.write_wf h)

theorem Store.writeRun_within (h : Store.within n m) {vs : List α} (ha : a + vs.length ≤ n) :
    Store.within n (Store.writeRun d m a vs) := by
  induction vs generalizing m a with
  | nil => exact h
  | cons v vs ih =>
    simp only [List.length_cons] at ha
    exact ih (Store.write_within h (by omega)) (by omega)

/-- A read after `MemWrite`: the run's element at its offset, every other index as before. -/
theorem Store.read_writeRun (h : Store.wf d m) (vs : List α) :
    Store.read d (Store.writeRun d m a vs) b =
      if a ≤ b ∧ b < a + vs.length then vs.getD (b - a) d else Store.read d m b := by
  induction vs generalizing m a with
  | nil =>
    have : ¬ (a ≤ b ∧ b < a + ([] : List α).length) := by simp
    rw [if_neg this]; rfl
  | cons v vs ih =>
    rw [Store.writeRun, ih (Store.write_wf h), Store.read_write h]
    simp only [List.length_cons]
    by_cases h1 : b = a
    · subst h1
      rw [if_neg (by omega), if_pos rfl, if_pos (by omega)]
      simp
    · by_cases h2 : a ≤ b ∧ b < a + (vs.length + 1)
      · rw [if_pos (by omega), if_pos h2]
        obtain ⟨i, rfl⟩ : ∃ i, b = a + 1 + i := ⟨b - (a + 1), by omega⟩
        rw [show a + 1 + i - (a + 1) = i by omega, show a + 1 + i - a = i + 1 by omega]
        rfl
      · rw [if_neg (by omega), if_neg h1, if_neg h2]

/-! ### Byte storages -/

theorem Memory.write_wf {m : Memory} (h : m.wf) (a : Nat) (v : Byte) : (Memory.write m a v).wf := Store.write_wf h

theorem Memory.writeRun_wf {m : Memory} (h : m.wf) (a : Nat) (v : List Byte) : (Memory.writeRun m a v).wf :=
  Store.writeRun_wf h v

@[simp] theorem Memory.readRun_length (m : Memory) (a n : Nat) : (Memory.readRun m a n).length = n :=
  Store.readRun_length m a n

theorem Memory.reset_wf : Memory.wf [] := ⟨.nil, by simp⟩

end Sys2Proof.Machine
end

