-- ==== Sys2Proof/Laws/State.lean ====
section
/-! SUPPORT. One lemma per field per update of the state: later proofs unfold no record update. -/

namespace Sys2Proof.Machine

/-! ### `setRing` -/

@[simp] theorem setRing_ltx (s : State) (r : Ring) (rb : RingBuf) : (s.setRing r rb).ltx = s.ltx := by
  cases r <;> rfl
@[simp] theorem setRing_lrx (s : State) (r : Ring) (rb : RingBuf) : (s.setRing r rb).lrx = s.lrx := by
  cases r <;> rfl
@[simp] theorem setRing_fq (s : State) (r : Ring) (rb : RingBuf) : (s.setRing r rb).fq = s.fq := by
  cases r <;> rfl
@[simp] theorem setRing_ann (s : State) (r : Ring) (rb : RingBuf) : (s.setRing r rb).ann = s.ann := by
  cases r <;> rfl
@[simp] theorem setRing_cfg (s : State) (r : Ring) (rb : RingBuf) : (s.setRing r rb).cfg = s.cfg := by
  cases r <;> rfl
@[simp] theorem setRing_port (s : State) (r : Ring) (rb : RingBuf) : (s.setRing r rb).port = s.port := by
  cases r <;> rfl
@[simp] theorem setRing_out (s : State) (r : Ring) (rb : RingBuf) : (s.setRing r rb).out = s.out := by
  cases r <;> rfl
@[simp] theorem setRing_staging (s : State) (r : Ring) (rb : RingBuf) : (s.setRing r rb).staging = s.staging := by
  cases r <;> rfl
@[simp] theorem setRing_agenda (s : State) (r : Ring) (rb : RingBuf) : (s.setRing r rb).agenda = s.agenda := by
  cases r <;> rfl
@[simp] theorem setRing_rbt_rbt (s : State) (rb : RingBuf) : (s.setRing .rbt rb).rbt = rb := rfl
@[simp] theorem setRing_rbt_rbr (s : State) (rb : RingBuf) : (s.setRing .rbt rb).rbr = s.rbr := rfl
@[simp] theorem setRing_rbr_rbt (s : State) (rb : RingBuf) : (s.setRing .rbr rb).rbt = s.rbt := rfl
@[simp] theorem setRing_rbr_rbr (s : State) (rb : RingBuf) : (s.setRing .rbr rb).rbr = rb := rfl
@[simp] theorem ring_rbt (s : State) : s.ring .rbt = s.rbt := rfl
@[simp] theorem ring_rbr (s : State) : s.ring .rbr = s.rbr := rfl
@[simp] theorem setRing_ring (s : State) (r : Ring) (rb : RingBuf) : (s.setRing r rb).ring r = rb := by
  cases r <;> rfl
@[simp] theorem setRing_link (s : State) (r : Ring) (rb : RingBuf) (d : Dir) :
    (s.setRing r rb).link d = s.link d := by
  cases r <;> rfl
theorem setRing_ring_other (s : State) {r r' : Ring} (rb : RingBuf) (h : r' ≠ r) :
    (s.setRing r rb).ring r' = s.ring r' := by
  cases r <;> cases r' <;> first | rfl | exact absurd rfl h

/-! ### `setLink` -/

@[simp] theorem setLink_rbt (s : State) (d : Dir) (l : Link) : (s.setLink d l).rbt = s.rbt := by
  cases d <;> rfl
@[simp] theorem setLink_rbr (s : State) (d : Dir) (l : Link) : (s.setLink d l).rbr = s.rbr := by
  cases d <;> rfl
@[simp] theorem setLink_fq (s : State) (d : Dir) (l : Link) : (s.setLink d l).fq = s.fq := by
  cases d <;> rfl
@[simp] theorem setLink_ann (s : State) (d : Dir) (l : Link) : (s.setLink d l).ann = s.ann := by
  cases d <;> rfl
@[simp] theorem setLink_cfg (s : State) (d : Dir) (l : Link) : (s.setLink d l).cfg = s.cfg := by
  cases d <;> rfl
@[simp] theorem setLink_port (s : State) (d : Dir) (l : Link) : (s.setLink d l).port = s.port := by
  cases d <;> rfl
@[simp] theorem setLink_out (s : State) (d : Dir) (l : Link) : (s.setLink d l).out = s.out := by
  cases d <;> rfl
@[simp] theorem setLink_staging (s : State) (d : Dir) (l : Link) : (s.setLink d l).staging = s.staging := by
  cases d <;> rfl
@[simp] theorem setLink_agenda (s : State) (d : Dir) (l : Link) : (s.setLink d l).agenda = s.agenda := by
  cases d <;> rfl
@[simp] theorem setLink_tx_ltx (s : State) (l : Link) : (s.setLink .tx l).ltx = l := rfl
@[simp] theorem setLink_tx_lrx (s : State) (l : Link) : (s.setLink .tx l).lrx = s.lrx := rfl
@[simp] theorem setLink_rx_ltx (s : State) (l : Link) : (s.setLink .rx l).ltx = s.ltx := rfl
@[simp] theorem setLink_rx_lrx (s : State) (l : Link) : (s.setLink .rx l).lrx = l := rfl
@[simp] theorem link_tx (s : State) : s.link .tx = s.ltx := rfl
@[simp] theorem link_rx (s : State) : s.link .rx = s.lrx := rfl
@[simp] theorem setLink_link (s : State) (d : Dir) (l : Link) : (s.setLink d l).link d = l := by
  cases d <;> rfl
@[simp] theorem setLink_ring (s : State) (d : Dir) (l : Link) (r : Ring) : (s.setLink d l).ring r = s.ring r := by
  cases d <;> cases r <;> rfl
theorem setLink_link_other (s : State) {d d' : Dir} (l : Link) (h : d' ≠ d) :
    (s.setLink d l).link d' = s.link d' := by
  cases d <;> cases d' <;> first | rfl | exact absurd rfl h

/-! ### `respond` -/

@[simp] theorem respond_rbt (s : State) (st : Status) (v : Bool) (val : Half) (p : List Byte) : (respond s st v val p).rbt = s.rbt := rfl
@[simp] theorem respond_rbr (s : State) (st : Status) (v : Bool) (val : Half) (p : List Byte) : (respond s st v val p).rbr = s.rbr := rfl
@[simp] theorem respond_ltx (s : State) (st : Status) (v : Bool) (val : Half) (p : List Byte) : (respond s st v val p).ltx = s.ltx := rfl
@[simp] theorem respond_lrx (s : State) (st : Status) (v : Bool) (val : Half) (p : List Byte) : (respond s st v val p).lrx = s.lrx := rfl
@[simp] theorem respond_fq (s : State) (st : Status) (v : Bool) (val : Half) (p : List Byte) : (respond s st v val p).fq = s.fq := rfl
@[simp] theorem respond_ann (s : State) (st : Status) (v : Bool) (val : Half) (p : List Byte) : (respond s st v val p).ann = s.ann := rfl
@[simp] theorem respond_cfg (s : State) (st : Status) (v : Bool) (val : Half) (p : List Byte) : (respond s st v val p).cfg = s.cfg := rfl
@[simp] theorem respond_port (s : State) (st : Status) (v : Bool) (val : Half) (p : List Byte) : (respond s st v val p).port = s.port := rfl
@[simp] theorem respond_staging (s : State) (st : Status) (v : Bool) (val : Half) (p : List Byte) : (respond s st v val p).staging = s.staging := rfl
@[simp] theorem respond_agenda (s : State) (st : Status) (v : Bool) (val : Half) (p : List Byte) : (respond s st v val p).agenda = s.agenda := rfl
@[simp] theorem respond_out_resp (s : State) (st : Status) (v : Bool) (val : Half) (p : List Byte) : (respond s st v val p).out.resp = some ⟨st, v, val, p⟩ := rfl
@[simp] theorem respond_out_wireOut (s : State) (st : Status) (v : Bool) (val : Half) (p : List Byte) : (respond s st v val p).out.wireOut = s.out.wireOut := rfl
@[simp] theorem respond_out_toHost (s : State) (st : Status) (v : Bool) (val : Half) (p : List Byte) : (respond s st v val p).out.toHost = s.out.toHost := rfl
@[simp] theorem respond_out_bridge (s : State) (st : Status) (v : Bool) (val : Half) (p : List Byte) : (respond s st v val p).out.bridge = s.out.bridge := rfl
@[simp] theorem respond_ring (s : State) (st : Status) (v : Bool) (val : Half) (p : List Byte) (r : Ring) : (respond s st v val p).ring r = s.ring r := by
  cases r <;> rfl
@[simp] theorem respond_link (s : State) (st : Status) (v : Bool) (val : Half) (p : List Byte) (d : Dir) : (respond s st v val p).link d = s.link d := by
  cases d <;> rfl

/-! ### `answer` -/

@[simp] theorem answer_rbt (s : State) (val : Half) : (answer s val).rbt = s.rbt := rfl
@[simp] theorem answer_rbr (s : State) (val : Half) : (answer s val).rbr = s.rbr := rfl
@[simp] theorem answer_ltx (s : State) (val : Half) : (answer s val).ltx = s.ltx := rfl
@[simp] theorem answer_lrx (s : State) (val : Half) : (answer s val).lrx = s.lrx := rfl
@[simp] theorem answer_fq (s : State) (val : Half) : (answer s val).fq = s.fq := rfl
@[simp] theorem answer_ann (s : State) (val : Half) : (answer s val).ann = s.ann := rfl
@[simp] theorem answer_cfg (s : State) (val : Half) : (answer s val).cfg = s.cfg := rfl
@[simp] theorem answer_port (s : State) (val : Half) : (answer s val).port = s.port := rfl
@[simp] theorem answer_staging (s : State) (val : Half) : (answer s val).staging = s.staging := rfl
@[simp] theorem answer_agenda (s : State) (val : Half) : (answer s val).agenda = s.agenda := rfl
@[simp] theorem answer_out_resp (s : State) (val : Half) : (answer s val).out.resp = some ⟨.ok, true, val, []⟩ := rfl
@[simp] theorem answer_out_wireOut (s : State) (val : Half) : (answer s val).out.wireOut = s.out.wireOut := rfl
@[simp] theorem answer_out_toHost (s : State) (val : Half) : (answer s val).out.toHost = s.out.toHost := rfl
@[simp] theorem answer_out_bridge (s : State) (val : Half) : (answer s val).out.bridge = s.out.bridge := rfl
@[simp] theorem answer_ring (s : State) (val : Half) (r : Ring) : (answer s val).ring r = s.ring r := by
  cases r <;> rfl
@[simp] theorem answer_link (s : State) (val : Half) (d : Dir) : (answer s val).link d = s.link d := by
  cases d <;> rfl

/-! ### `acknowledge` -/

@[simp] theorem acknowledge_rbt (s : State) : (acknowledge s).rbt = s.rbt := rfl
@[simp] theorem acknowledge_rbr (s : State) : (acknowledge s).rbr = s.rbr := rfl
@[simp] theorem acknowledge_ltx (s : State) : (acknowledge s).ltx = s.ltx := rfl
@[simp] theorem acknowledge_lrx (s : State) : (acknowledge s).lrx = s.lrx := rfl
@[simp] theorem acknowledge_fq (s : State) : (acknowledge s).fq = s.fq := rfl
@[simp] theorem acknowledge_ann (s : State) : (acknowledge s).ann = s.ann := rfl
@[simp] theorem acknowledge_cfg (s : State) : (acknowledge s).cfg = s.cfg := rfl
@[simp] theorem acknowledge_port (s : State) : (acknowledge s).port = s.port := rfl
@[simp] theorem acknowledge_staging (s : State) : (acknowledge s).staging = s.staging := rfl
@[simp] theorem acknowledge_agenda (s : State) : (acknowledge s).agenda = s.agenda := rfl
@[simp] theorem acknowledge_out_resp (s : State) : (acknowledge s).out.resp = some ⟨.ok, false, 0, []⟩ := rfl
@[simp] theorem acknowledge_out_wireOut (s : State) : (acknowledge s).out.wireOut = s.out.wireOut := rfl
@[simp] theorem acknowledge_out_toHost (s : State) : (acknowledge s).out.toHost = s.out.toHost := rfl
@[simp] theorem acknowledge_out_bridge (s : State) : (acknowledge s).out.bridge = s.out.bridge := rfl
@[simp] theorem acknowledge_ring (s : State) (r : Ring) : (acknowledge s).ring r = s.ring r := by
  cases r <;> rfl
@[simp] theorem acknowledge_link (s : State) (d : Dir) : (acknowledge s).link d = s.link d := by
  cases d <;> rfl

/-! ### `raiseError` -/

@[simp] theorem raiseError_rbt (s : State) (e : Status) : (raiseError s e).rbt = s.rbt := rfl
@[simp] theorem raiseError_rbr (s : State) (e : Status) : (raiseError s e).rbr = s.rbr := rfl
@[simp] theorem raiseError_ltx (s : State) (e : Status) : (raiseError s e).ltx = s.ltx := rfl
@[simp] theorem raiseError_lrx (s : State) (e : Status) : (raiseError s e).lrx = s.lrx := rfl
@[simp] theorem raiseError_fq (s : State) (e : Status) : (raiseError s e).fq = s.fq := rfl
@[simp] theorem raiseError_ann (s : State) (e : Status) : (raiseError s e).ann = s.ann := rfl
@[simp] theorem raiseError_cfg (s : State) (e : Status) : (raiseError s e).cfg = s.cfg := rfl
@[simp] theorem raiseError_port (s : State) (e : Status) : (raiseError s e).port = s.port := rfl
@[simp] theorem raiseError_staging (s : State) (e : Status) : (raiseError s e).staging = s.staging := rfl
@[simp] theorem raiseError_agenda (s : State) (e : Status) : (raiseError s e).agenda = s.agenda := rfl
@[simp] theorem raiseError_out_resp (s : State) (e : Status) : (raiseError s e).out.resp = some ⟨e, false, 0, []⟩ := rfl
@[simp] theorem raiseError_out_wireOut (s : State) (e : Status) : (raiseError s e).out.wireOut = s.out.wireOut := rfl
@[simp] theorem raiseError_out_toHost (s : State) (e : Status) : (raiseError s e).out.toHost = s.out.toHost := rfl
@[simp] theorem raiseError_out_bridge (s : State) (e : Status) : (raiseError s e).out.bridge = s.out.bridge := rfl
@[simp] theorem raiseError_ring (s : State) (e : Status) (r : Ring) : (raiseError s e).ring r = s.ring r := by
  cases r <;> rfl
@[simp] theorem raiseError_link (s : State) (e : Status) (d : Dir) : (raiseError s e).link d = s.link d := by
  cases d <;> rfl

/-! ### `emitWire` -/

@[simp] theorem emitWire_rbt (s : State) (b : Byte) : (emitWire s b).rbt = s.rbt := rfl
@[simp] theorem emitWire_rbr (s : State) (b : Byte) : (emitWire s b).rbr = s.rbr := rfl
@[simp] theorem emitWire_ltx (s : State) (b : Byte) : (emitWire s b).ltx = s.ltx := rfl
@[simp] theorem emitWire_lrx (s : State) (b : Byte) : (emitWire s b).lrx = s.lrx := rfl
@[simp] theorem emitWire_fq (s : State) (b : Byte) : (emitWire s b).fq = s.fq := rfl
@[simp] theorem emitWire_ann (s : State) (b : Byte) : (emitWire s b).ann = s.ann := rfl
@[simp] theorem emitWire_cfg (s : State) (b : Byte) : (emitWire s b).cfg = s.cfg := rfl
@[simp] theorem emitWire_port (s : State) (b : Byte) : (emitWire s b).port = s.port := rfl
@[simp] theorem emitWire_staging (s : State) (b : Byte) : (emitWire s b).staging = s.staging := rfl
@[simp] theorem emitWire_agenda (s : State) (b : Byte) : (emitWire s b).agenda = s.agenda := rfl
@[simp] theorem emitWire_out_resp (s : State) (b : Byte) : (emitWire s b).out.resp = s.out.resp := rfl
@[simp] theorem emitWire_out_wireOut (s : State) (b : Byte) : (emitWire s b).out.wireOut = some b := rfl
@[simp] theorem emitWire_out_toHost (s : State) (b : Byte) : (emitWire s b).out.toHost = s.out.toHost := rfl
@[simp] theorem emitWire_out_bridge (s : State) (b : Byte) : (emitWire s b).out.bridge = s.out.bridge := rfl
@[simp] theorem emitWire_ring (s : State) (b : Byte) (r : Ring) : (emitWire s b).ring r = s.ring r := by
  cases r <;> rfl
@[simp] theorem emitWire_link (s : State) (b : Byte) (d : Dir) : (emitWire s b).link d = s.link d := by
  cases d <;> rfl

/-! ### `returnBridge` -/

@[simp] theorem returnBridge_rbt (s : State) (b : BridgeResult) : (returnBridge s b).rbt = s.rbt := rfl
@[simp] theorem returnBridge_rbr (s : State) (b : BridgeResult) : (returnBridge s b).rbr = s.rbr := rfl
@[simp] theorem returnBridge_ltx (s : State) (b : BridgeResult) : (returnBridge s b).ltx = s.ltx := rfl
@[simp] theorem returnBridge_lrx (s : State) (b : BridgeResult) : (returnBridge s b).lrx = s.lrx := rfl
@[simp] theorem returnBridge_fq (s : State) (b : BridgeResult) : (returnBridge s b).fq = s.fq := rfl
@[simp] theorem returnBridge_ann (s : State) (b : BridgeResult) : (returnBridge s b).ann = s.ann := rfl
@[simp] theorem returnBridge_cfg (s : State) (b : BridgeResult) : (returnBridge s b).cfg = s.cfg := rfl
@[simp] theorem returnBridge_port (s : State) (b : BridgeResult) : (returnBridge s b).port = s.port := rfl
@[simp] theorem returnBridge_staging (s : State) (b : BridgeResult) : (returnBridge s b).staging = s.staging := rfl
@[simp] theorem returnBridge_agenda (s : State) (b : BridgeResult) : (returnBridge s b).agenda = s.agenda := rfl
@[simp] theorem returnBridge_out_resp (s : State) (b : BridgeResult) : (returnBridge s b).out.resp = s.out.resp := rfl
@[simp] theorem returnBridge_out_wireOut (s : State) (b : BridgeResult) : (returnBridge s b).out.wireOut = s.out.wireOut := rfl
@[simp] theorem returnBridge_out_toHost (s : State) (b : BridgeResult) : (returnBridge s b).out.toHost = s.out.toHost := rfl
@[simp] theorem returnBridge_out_bridge (s : State) (b : BridgeResult) : (returnBridge s b).out.bridge = some b := rfl
@[simp] theorem returnBridge_ring (s : State) (b : BridgeResult) (r : Ring) : (returnBridge s b).ring r = s.ring r := by
  cases r <;> rfl
@[simp] theorem returnBridge_link (s : State) (b : BridgeResult) (d : Dir) : (returnBridge s b).link d = s.link d := by
  cases d <;> rfl

/-! ### `begin` and `blockReset` -/

@[simp] theorem begin_rbt (s : State) (rest : List Event) : (s.begin rest).rbt = s.rbt := rfl
@[simp] theorem begin_rbr (s : State) (rest : List Event) : (s.begin rest).rbr = s.rbr := rfl
@[simp] theorem begin_ltx (s : State) (rest : List Event) : (s.begin rest).ltx = s.ltx := rfl
@[simp] theorem begin_lrx (s : State) (rest : List Event) : (s.begin rest).lrx = s.lrx := rfl
@[simp] theorem begin_fq (s : State) (rest : List Event) : (s.begin rest).fq = s.fq := rfl
@[simp] theorem begin_ann (s : State) (rest : List Event) : (s.begin rest).ann = s.ann := rfl
@[simp] theorem begin_cfg (s : State) (rest : List Event) : (s.begin rest).cfg = s.cfg := rfl
@[simp] theorem begin_port (s : State) (rest : List Event) : (s.begin rest).port = s.port := rfl
@[simp] theorem begin_out (s : State) (rest : List Event) : (s.begin rest).out = .none := rfl
@[simp] theorem begin_staging (s : State) (rest : List Event) : (s.begin rest).staging = s.staging := rfl
@[simp] theorem begin_agenda (s : State) (rest : List Event) : (s.begin rest).agenda = rest := rfl
@[simp] theorem blockReset_rbt (s : State) : (blockReset s).rbt = .atReset := rfl
@[simp] theorem blockReset_rbr (s : State) : (blockReset s).rbr = .atReset := rfl
@[simp] theorem blockReset_ltx (s : State) : (blockReset s).ltx = .atReset := rfl
@[simp] theorem blockReset_lrx (s : State) : (blockReset s).lrx = .atReset := rfl
@[simp] theorem blockReset_fq (s : State) : (blockReset s).fq = [] := rfl
@[simp] theorem blockReset_ann (s : State) : (blockReset s).ann = .atReset := rfl
@[simp] theorem blockReset_cfg (s : State) : (blockReset s).cfg = s.cfg := rfl
@[simp] theorem blockReset_port (s : State) : (blockReset s).port = s.port := rfl
@[simp] theorem blockReset_out (s : State) : (blockReset s).out = s.out := rfl
@[simp] theorem blockReset_staging (s : State) : (blockReset s).staging = s.staging := rfl
@[simp] theorem blockReset_agenda (s : State) : (blockReset s).agenda = s.agenda := rfl

end Sys2Proof.Machine
end

