-- ==== Sys2Proof/Safety.lean ====
section
/-! DEFINITION. The invariants the spec states of the block (10_state.md R25, R36, R48, with the ranges of R21 to
R24, R30 to R35, R38, R43 to R45 and the canonical form of the storages), and runs of the machine. -/

namespace Sys2Proof.Machine

/-- RB-INV and the ranges of R21 to R25. -/
abbrev RingBuf.Inv (c : Config) (rb : RingBuf) : Prop :=
  rb.wp = (rb.rp + rb.cnt) % c.ringCap ∧ rb.wp < c.ringCap ∧ rb.rp < c.ringCap ∧ rb.cnt ≤ c.ringCap ∧
  Memory.wf rb.mem ∧ Store.within c.ringCap rb.mem

/-- LT-INV (R36) with the storage of R30. -/
abbrev Link.Inv (c : Config) (l : Link) : Prop :=
  l.rem ≤ l.tl ∧ l.tl ≤ c.bufSize ∧ l.rc ≤ c.retryCap ∧ (l.xs = .error → l.ff = true) ∧
  (l.xs = .complete → l.rem = 0) ∧ Memory.wf l.hb ∧ Store.within c.bufSize l.hb

/-- "For LRX it is always N once a receive has been started" (R35). -/
abbrev Link.RxFull (c : Config) (l : Link) : Prop := l.xs ≠ .idle → l.tl = c.bufSize

/-- ANN-INV (R48) with the storage of R43. -/
abbrev Annunciator.Inv (c : Config) (a : Annunciator) : Prop :=
  (a.led = true ↔ a.st = .signal) ∧
  (a.st ≠ .idle → a.loaded = true ∧ a.idx < a.slen) ∧
  (a.st = .signal → Store.read Symbol.dot a.seq a.idx = .dot ∨ Store.read Symbol.dot a.seq a.idx = .dash) ∧
  (a.loaded = false → a.slen = 0 ∧ a.idx = 0 ∧ a.st = .idle) ∧
  a.idx ≤ a.slen ∧ a.slen ≤ c.seqMax ∧ Store.wf Symbol.dot a.seq ∧ Store.within c.seqMax a.seq

/-- The invariant of the whole block, and that HB.OUT stays within its staging area of PKT bytes (43_host_bridge.md
R223). -/
abbrev State.Inv (s : State) : Prop :=
  s.cfg.wf ∧ s.rbt.Inv s.cfg ∧ s.rbr.Inv s.cfg ∧ s.ltx.Inv s.cfg ∧ s.lrx.Inv s.cfg ∧ s.lrx.RxFull s.cfg ∧
  s.fq.length ≤ s.cfg.queueCap ∧ s.ann.Inv s.cfg ∧ s.staging.held ≤ s.cfg.pktSize

/-- The symbols of the loaded sequence are ones the encoder emits (46_annunciator.md R288: "cannot occur" from
reset). -/
abbrev Annunciator.Playable (a : Annunciator) : Prop :=
  ∀ i, i < a.slen → Store.read Symbol.dot a.seq i ≠ .invalid

/-- Two states that agree on the six units of R20. -/
abbrev State.SameUnits (s t : State) : Prop :=
  t.rbt = s.rbt ∧ t.rbr = s.rbr ∧ t.ltx = s.ltx ∧ t.lrx = s.lrx ∧ t.fq = s.fq ∧ t.ann = s.ann

/-- Two states that agree on what no command of the block writes: the configuration, the transaction inputs, the
staging area, the agenda and the outputs other than the response. -/
abbrev State.SameSurround (s t : State) : Prop :=
  t.cfg = s.cfg ∧ t.port = s.port ∧ t.staging = s.staging ∧ t.agenda = s.agenda ∧
  t.out.wireOut = s.out.wireOut ∧ t.out.toHost = s.out.toHost ∧ t.out.bridge = s.out.bridge

end Sys2Proof.Machine
end

