-- ==== Sys2Proof/Laws/Ring.lean ====
section
/-! SUPPORT. What the ring-buffer operations do, said once: the byte-by-byte form of the two-run copies
(41_ringbuffer.md R149), what each shared operation answers, and that each keeps RB-INV. -/

namespace Sys2Proof.Machine

variable {c : Config} {rb : RingBuf} {data : List Byte} {a i k n : Nat}

/-! ### The copies -/

/-- The index of the `i`-th byte from a cursor (R121): one conditional subtraction. -/
theorem cursor_add (hp : a < n) (hi : i ≤ n) : (a + i) % n = if a + i < n then a + i else a + i - n := by
  split
  · exact Nat.mod_eq_of_lt ‹_›
  · rw [Nat.mod_eq_sub_mod (by omega), Nat.mod_eq_of_lt (by omega)]

@[simp] theorem ringAppend_wp : (ringAppend c rb data).wp = (rb.wp + data.length) % c.ringCap := rfl
@[simp] theorem ringAppend_rp : (ringAppend c rb data).rp = rb.rp := rfl
@[simp] theorem ringAppend_cnt : (ringAppend c rb data).cnt = rb.cnt + data.length := rfl
@[simp] theorem ringDrop_mem : (ringDrop c rb k).mem = rb.mem := rfl
@[simp] theorem ringDrop_wp : (ringDrop c rb k).wp = rb.wp := rfl
@[simp] theorem ringDrop_rp : (ringDrop c rb k).rp = (rb.rp + k) % c.ringCap := rfl
@[simp] theorem ringDrop_cnt : (ringDrop c rb k).cnt = rb.cnt - k := rfl

/-- The storage after the two runs of a PUSH, index by index. -/
theorem ringAppend_read (hm : Memory.wf rb.mem) (hw : rb.wp < c.ringCap) (hn : data.length ≤ c.ringCap) (b : Nat) :
    Memory.read (ringAppend c rb data).mem b =
      if rb.wp ≤ b ∧ b < rb.wp + data.length ∧ b < c.ringCap then data.getD (b - rb.wp) 0
      else if b + c.ringCap < rb.wp + data.length then data.getD (b + c.ringCap - rb.wp) 0
      else Memory.read rb.mem b := by
  unfold ringAppend Memory.read Memory.writeRun
  simp only
  rw [Store.read_writeRun (Store.writeRun_wf hm _), Store.read_writeRun hm]
  simp only [List.length_drop, List.length_take, Nat.zero_le, true_and, Nat.zero_add, Nat.sub_zero]
  by_cases h1 : b < data.length - min data.length (c.ringCap - rb.wp)
  · rw [if_pos h1, if_neg (by omega), if_pos (by omega)]
    simp only [List.getD_eq_getElem?_getD, List.getElem?_drop]
    congr 2; omega
  · rw [if_neg h1]
    by_cases h2 : rb.wp ≤ b ∧ b < rb.wp + min (min data.length (c.ringCap - rb.wp)) data.length
    · rw [if_pos h2, if_pos (by omega)]
      simp only [List.getD_eq_getElem?_getD, List.getElem?_take]
      rw [if_pos (by omega)]
    · rw [if_neg h2, if_neg (by omega), if_neg (by omega)]

/-- The bytes a POP returns, one by one. -/
theorem ringFront_eq_map (hr : rb.rp < c.ringCap) (hk : k ≤ c.ringCap) :
    ringFront c rb k = (List.range k).map fun i => Memory.read rb.mem ((rb.rp + i) % c.ringCap) := by
  apply List.ext_getElem?
  intro i
  unfold ringFront Memory.readRun Memory.read
  simp only [List.getElem?_append, Store.readRun_length, Store.readRun_getElem?, List.getElem?_map]
  by_cases hi : i < k
  · rw [List.getElem?_range hi, Option.map_some, cursor_add hr (by omega)]
    by_cases h1 : i < min k (c.ringCap - rb.rp)
    · rw [if_pos h1, if_pos h1, if_pos (by omega)]
    · rw [if_neg h1, if_pos (by omega), if_neg (by omega)]
      congr 2; omega
  · rw [List.getElem?_eq_none (by simpa using hi), Option.map_none, if_neg (by omega), if_neg (by omega)]

@[simp] theorem ringFront_length : (ringFront c rb k).length = k := by
  simp only [ringFront, List.length_append, Memory.readRun_length]; omega

/-! ### RB-INV -/

theorem ringAppend_inv (h : rb.Inv c) (hn : data.length ≤ c.ringCap - rb.cnt) : (ringAppend c rb data).Inv c := by
  obtain ⟨h1, h2, h3, h4, h5, h6⟩ := h
  refine ⟨?_, Nat.mod_lt _ (by omega), h3, ?_, Memory.writeRun_wf (Memory.writeRun_wf h5 _ _) _ _, ?_⟩
  · simp only [ringAppend_wp, ringAppend_rp, ringAppend_cnt]
    rw [h1, Nat.mod_add_mod, Nat.add_assoc]
  · simp only [ringAppend_cnt]; omega
  · exact Store.writeRun_within (Store.writeRun_within h6 (by simp; omega)) (by simp; omega)

theorem ringDrop_inv (h : rb.Inv c) (hk : k ≤ rb.cnt) : (ringDrop c rb k).Inv c := by
  obtain ⟨h1, h2, h3, h4, h5, h6⟩ := h
  refine ⟨?_, h2, Nat.mod_lt _ (by omega), ?_, h5, h6⟩
  · simp only [ringDrop_wp, ringDrop_rp, ringDrop_cnt]
    rw [h1, Nat.mod_add_mod, show rb.rp + k + (rb.cnt - k) = rb.rp + rb.cnt by omega]
  · simp only [ringDrop_cnt]; omega

theorem ringCleared_inv (h : 1 ≤ c.ringCap) : ringCleared.Inv c := by
  refine ⟨?_, h, h, Nat.zero_le _, Memory.reset_wf, ?_⟩
  · simp [ringCleared, RingBuf.atReset]
  · simp [ringCleared, RingBuf.atReset]

/-! ### What the shared operations answer -/

/-- Everything a PUSH can do. -/
theorem pushRing_cases {r : Ring} {s : State} :
    (ringAvail s.cfg (s.ring r) < n ∧ pushRing r n s = .next (raiseError s .bufferOverflow)) ∨
    (n ≤ ringAvail s.cfg (s.ring r) ∧ s.port.din.length ≠ n ∧ pushRing r n s = .refused .payloadLength) ∨
    (n ≤ ringAvail s.cfg (s.ring r) ∧ s.port.din.length = n ∧
      pushRing r n s = .next (answer (s.setRing r (ringAppend s.cfg (s.ring r) s.port.din)) (natValue n))) := by
  unfold pushRing payloadOf
  by_cases h1 : ringAvail s.cfg (s.ring r) < n
  · exact .inl ⟨h1, by simp [h1]⟩
  · by_cases h2 : s.port.din.length = n
    · exact .inr (.inr ⟨by omega, h2, by simp [h1, h2]⟩)
    · exact .inr (.inl ⟨by omega, h2, by simp [h1, h2]⟩)

/-- Everything a POPN can do. -/
theorem popnRing_cases {r : Ring} {s : State} :
    (n ≤ s.cfg.bufSize ∧ popnRing r n s = .next (takeRing r n s)) ∨
    (s.cfg.bufSize < n ∧ popnRing r n s = .next (raiseError s .illegal)) := by
  unfold popnRing popnAllowed
  by_cases h : n ≤ s.cfg.bufSize
  · exact .inl ⟨h, by simp [h]⟩
  · exact .inr ⟨by omega, by simp [h]⟩

end Sys2Proof.Machine
end

