-- ==== Sys2Proof/Laws/Units.lean ====
section
/-! SUPPORT. What the operations of the link directions, the fault queue, the annunciator, the engines and the
pseudo-operations can do, said once each. -/

namespace Sys2Proof.Machine

variable {s t : State} {d : Dir}

/-! ### Link transfer (42_link_transfer.md) -/

/-- Everything LTX.START can do. -/
theorem startTx_cases {len : Nat} :
    (s.ltx.xs ≠ .idle ∧ startTx len s = .next (raiseError s .illegal)) ∨
    (s.ltx.xs = .idle ∧ s.cfg.bufSize < len ∧ s.rbt.cnt < len ∧
      startTx len s = .next (raiseError s .bufferUnderflow)) ∨
    (s.ltx.xs = .idle ∧ ¬ (s.cfg.bufSize < len ∧ s.rbt.cnt < len) ∧
      startTx len s = .next (respondStart
        ((s.setRing .rbt (ringDrop s.cfg s.rbt (txCount s len))).setLink .tx
          (startLink s.port.startOk (txLoaded s (txCount s len)))) .tx true (natValue (txCount s len)))) := by
  unfold startTx
  by_cases h1 : s.ltx.xs = .idle
  · by_cases h2 : s.cfg.bufSize < len ∧ s.rbt.cnt < len
    · exact .inr (.inl ⟨h1, h2.1, h2.2, by simp [h1, h2]⟩)
    · refine .inr (.inr ⟨h1, h2, ?_⟩)
      rw [if_neg (not_not_intro h1), if_neg h2]
  · exact .inl ⟨h1, by rw [if_pos h1]⟩

/-- Everything a FAULT command can do. -/
theorem faultLink_cases :
    ((s.link d).xs ≠ .error ∧ faultLink d s = .next (answer s 0)) ∨
    ((s.link d).xs = .error ∧ (s.link d).rc < s.cfg.retryCap ∧
      faultLink d s = .next (respondStart
        (s.setLink d (restartLink s.port.startOk { s.link d with ff := false, rc := (s.link d).rc + 1 })) d true
        (natValue ((s.link d).rc + 1)))) ∨
    ((s.link d).xs = .error ∧ s.cfg.retryCap ≤ (s.link d).rc ∧
      faultLink d s = .next (raiseError
        (s.setLink d { s.link d with ff := false, rc := 0, xs := .idle }) .retryLimitExceeded)) := by
  unfold faultLink
  by_cases h1 : (s.link d).xs = .error
  · by_cases h2 : (s.link d).rc < s.cfg.retryCap
    · exact .inr (.inl ⟨h1, h2, by simp [h1, h2]⟩)
    · exact .inr (.inr ⟨h1, by omega, by simp [h1, h2]⟩)
  · exact .inl ⟨h1, by simp [h1]⟩

/-- Everything LRX.START can do. -/
theorem startRx_cases :
    (s.lrx.xs ≠ .idle ∧ startRx s = .next (raiseError s .illegal)) ∨
    (s.lrx.xs = .idle ∧ startRx s = .next (respondStart (s.setLink .rx (startLink s.port.startOk
        { s.lrx with tl := s.cfg.bufSize, rem := s.cfg.bufSize })) .rx false 0)) := by
  unfold startRx
  by_cases h1 : s.lrx.xs = .idle
  · exact .inr ⟨h1, by simp [h1]⟩
  · exact .inl ⟨h1, by simp [h1]⟩

/-- Everything LRX.READ can do. -/
theorem readRx_cases :
    (s.lrx.xs = .error ∧ readRx s = .next (raiseError s .readError)) ∨
    (s.lrx.xs = .idle ∧ readRx s = .next (answer s 0)) ∨
    ((s.lrx.xs = .active ∨ s.lrx.xs = .complete) ∧ ringAvail s.cfg s.rbr < rxCount s ∧
      readRx s = .next (raiseError s .bufferOverflow)) ∨
    ((s.lrx.xs = .active ∨ s.lrx.xs = .complete) ∧ rxCount s ≤ ringAvail s.cfg s.rbr ∧
      readRx s = .next (answer ((s.setRing .rbr
        (ringAppend s.cfg s.rbr (Memory.readRun s.lrx.hb 0 (rxCount s)))).setLink .rx
          { s.lrx with xs := .idle, rc := 0 }) (natValue (rxCount s)))) := by
  unfold readRx harvestRx
  by_cases h : ringAvail s.cfg s.rbr < rxCount s
  · cases hx : s.lrx.xs <;> simp [h]
  · have h' : rxCount s ≤ ringAvail s.cfg s.rbr := by omega
    cases hx : s.lrx.xs <;> simp [h, h']

/-- What a refused or accepted start leaves of the tag and the flag. -/
theorem startLink_cases (ok : Bool) (l : Link) :
    (ok = true ∧ startLink ok l = { l with xs := .active }) ∨
    (ok = false ∧ startLink ok l = { l with ff := false, xs := .idle }) := by
  cases ok <;> simp [startLink]

/-- What a start answers. -/
theorem respondStart_cases (v : Bool) (val : Half) :
    (s.port.startOk = true ∧ respondStart s d v val = respond s .ok v val []) ∨
    (s.port.startOk = false ∧ respondStart s d v val = raiseError s (startError d)) := by
  cases h : s.port.startOk <;> simp [respondStart, h]

/-! ### Annunciator (46_annunciator.md) -/

/-- Everything branch LOAD can do. -/
theorem tickLoad_cases :
    (s.fq = [] ∧ tickLoad s = respondTick s) ∨
    (∃ c q, s.fq = c :: q ∧ encodeCode s.cfg c = none ∧
      tickLoad s = .next (raiseError { s with fq := q } .lengthError)) ∨
    (∃ c q syms, s.fq = c :: q ∧ encodeCode s.cfg c = some syms ∧
      tickLoad s = respondTick { s with fq := q, ann := loadSeq s.ann syms }) := by
  unfold tickLoad
  cases hq : s.fq with
  | nil => simp
  | cons c q => cases he : encodeCode s.cfg c <;> simp [he]

/-- Everything a branch that reads the current symbol can do. -/
theorem tickSymbol_cases (f : Annunciator → Symbol → Annunciator) :
    (s.ann.idx < s.cfg.seqMax ∧ tickSymbol f s =
      respondTick { s with ann := f s.ann (Store.read Symbol.dot s.ann.seq s.ann.idx) }) ∨
    (s.cfg.seqMax ≤ s.ann.idx ∧ tickSymbol f s = .fault (.outsideStorage s.ann.idx s.cfg.seqMax)) := by
  unfold tickSymbol
  by_cases h : s.ann.idx < s.cfg.seqMax
  · exact .inl ⟨h, by simp [h]⟩
  · exact .inr ⟨by omega, by simp [h]⟩

/-! ### Engine moves (R172 to R176) -/

/-- What ENG.RXBYTE does where it gives a next state. -/
theorem moveRxByte_next {b : Byte} (h : moveRxByte b s = .next t) :
    s.lrx.xs = .active ∧ 0 < s.lrx.rem ∧ s.cfg.bufSize - s.lrx.rem < s.cfg.bufSize ∧
    t = s.setLink .rx (rxStored s.cfg b s.lrx) := by
  unfold moveRxByte at h
  split at h
  · split at h
    · cases h; exact ⟨by tauto, by tauto, by assumption, rfl⟩
    · cases h
  · cases h

/-- What ENG.TXBYTE does where it gives a next state. -/
theorem moveTxByte_next (h : moveTxByte s = .next t) :
    s.ltx.xs = .active ∧ 0 < s.ltx.rem ∧
    t = emitWire (s.setLink .tx { s.ltx with rem := s.ltx.rem - 1 })
      (Memory.read s.ltx.hb (s.ltx.tl - s.ltx.rem)) := by
  unfold moveTxByte at h
  split at h
  · split at h
    · cases h; exact ⟨by tauto, by tauto, rfl⟩
    · cases h
  · cases h

/-- What ENG.COMPLETE does where it gives a next state. -/
theorem moveComplete_next (h : moveComplete d s = .next t) :
    (s.link d).xs = .active ∧ (s.link d).rem = 0 ∧ t = s.setLink d { s.link d with xs := .complete } := by
  unfold moveComplete at h
  split at h
  · cases h; exact ⟨by tauto, by tauto, rfl⟩
  · cases h

/-- What ENG.FAULT does where it gives a next state. -/
theorem moveFault_next (h : moveFault d s = .next t) :
    (s.link d).xs = .active ∧ t = s.setLink d { s.link d with xs := .error, ff := true } := by
  unfold moveFault at h
  split at h
  · cases h; exact ⟨by assumption, rfl⟩
  · cases h

/-! ### Pseudo-operations (R220 to R223, R243) -/

/-- A pseudo-operation's PUSH returns a state that the PUSH itself reached, but for what the operation returns. -/
theorem issuePush_next {i : Instr} {data : List Byte} {n : Nat} (h : issuePush i data n s = .next t) :
    ∃ t1, issue i data s = .next t1 ∧ (t = t1 ∨ ∃ b, t = returnBridge t1 b) := by
  unfold issuePush at h
  split at h
  · rename_i s1 h1
    refine ⟨s1, h1, ?_⟩
    split at h
    · split at h <;> cases h <;> exact .inr ⟨_, rfl⟩
    · cases h; exact .inl rfl
  · cases h
  · cases h

@[simp] theorem held_idle : HostOut.idle.held = 0 := rfl
@[simp] theorem held_staged (data : List Byte) : (HostOut.staged data).held = data.length := rfl
@[simp] theorem held_taken (a : Nat) (rest : List Byte) : (HostOut.taken a rest).held = a + rest.length := rfl

/-- What HB.OUT's POP does where it gives a next state. -/
theorem hostOutPop_next (h : hostOutPop s = .next t) :
    s.staging = .idle ∧ ∃ t1, issue (.rbrPop (natValue s.cfg.pktSize)) [] s = .next t1 ∧
      ((t1.out.resp = none ∧ t = t1) ∨
        ∃ r, t1.out.resp = some r ∧
          (r.dout = [] ∧ t = returnBridge t1 (.ok 0) ∨ r.dout ≠ [] ∧ t = { t1 with staging := .staged r.dout })) := by
  unfold hostOutPop at h
  split at h
  case h_1 hs =>
    refine ⟨hs, ?_⟩
    split at h
    case h_1 t1 h1 =>
      refine ⟨t1, h1, ?_⟩
      split at h
      case h_1 r hr => split at h <;> cases h <;> simp_all
      case h_2 hr => cases h; exact .inl ⟨hr, rfl⟩
    all_goals cases h
  all_goals cases h

/-- What HB.OUT's write does where it gives a next state. -/
theorem hostOutWrite_next {a : Nat} (h : hostOutWrite a s = .next t) :
    ∃ data, s.staging = .staged data ∧ a ≤ data.length ∧
      t = { s with
        staging := if a < data.length then .taken a (data.drop a) else .idle
        out := { s.out with
          toHost := data.take a
          bridge := if a < data.length then s.out.bridge else some (.ok a) } } := by
  unfold hostOutWrite at h
  split at h
  case h_1 data hs =>
    refine ⟨data, hs, ?_⟩
    split at h
    case isTrue ha =>
      refine ⟨by simpa [acceptedInRange] using ha, ?_⟩
      by_cases hlt : a < data.length <;> simp only [hlt, if_true, if_false] at h ⊢ <;> cases h <;> rfl
    case isFalse => cases h
  all_goals cases h

/-- What HB.OUT's re-enqueue does where it gives a next state: it is a PUSH of the remainder. -/
theorem hostOutRequeue_next (h : hostOutRequeue s = .next t) :
    ∃ a rest, s.staging = .taken a rest ∧
      issuePush (.rbrPush (natValue rest.length)) rest a { s with staging := .idle } = .next t := by
  unfold hostOutRequeue at h
  split at h
  case h_1 a rest hs => exact ⟨a, rest, hs, h⟩
  all_goals cases h

end Sys2Proof.Machine
end

