-- ==== Sys2Proof/Certificates/Slice0/Obligations.lean ====
section
/-! DEFINITION. The statements for the provers: what the spec's rules say a command, a move, a pseudo-operation or
the whole block does. `Sys2Proof.Claims` holds the words they share. -/

namespace Sys2Proof.Claims

open Sys2Proof.Machine

/-! ### The commands of the two rings and the two directions by name -/

/-- UNIT of a ring (30_encoding.md R101). -/
def ringUnit : Ring → BitVec 4
  | .rbt => 1
  | .rbr => 2

/-- UNIT of a link direction (R101). -/
def linkUnit : Dir → BitVec 4
  | .tx => 3
  | .rx => 4

/-- RBx.PUSH n. -/
def pushOf : Ring → Half → Instr
  | .rbt => .rbtPush
  | .rbr => .rbrPush

/-- RBx.POP m. -/
def popOf : Ring → Half → Instr
  | .rbt => .rbtPop
  | .rbr => .rbrPop

/-- RBx.POPN n. -/
def popnOf : Ring → Half → Instr
  | .rbt => .rbtPopn
  | .rbr => .rbrPopn

/-- RBx.CLEAR. -/
def clearOf : Ring → Instr
  | .rbt => .rbtClear
  | .rbr => .rbrClear

/-- RBx.LEN. -/
def lenOf : Ring → Instr
  | .rbt => .rbtLen
  | .rbr => .rbrLen

/-- RBx.ISEMPTY. -/
def isemptyOf : Ring → Instr
  | .rbt => .rbtIsempty
  | .rbr => .rbrIsempty

/-- RBx.AVAIL. -/
def availOf : Ring → Instr
  | .rbt => .rbtAvail
  | .rbr => .rbrAvail

/-- RBx.CAP. -/
def capOf : Ring → Instr
  | .rbt => .rbtCap
  | .rbr => .rbrCap

/-- RBx.ISFULL. -/
def isfullOf : Ring → Instr
  | .rbt => .rbtIsfull
  | .rbr => .rbrIsfull

/-- LTx.FAULT. -/
def faultOf : Dir → Instr
  | .tx => .ltxFault
  | .rx => .lrxFault

/-- LTx.STATUS. -/
def statusOf : Dir → Instr
  | .tx => .ltxStatus
  | .rx => .lrxStatus

/-- LTx.RETRIES. -/
def retriesOf : Dir → Instr
  | .tx => .ltxRetries
  | .rx => .lrxRetries

/-- The fields of a command's word (R101). -/
def Encoded (i : Instr) (unit op : BitVec 4) (arg : Half) : Prop :=
  cwUnit (encode i) = unit ∧ cwOp (encode i) = op ∧ cwRsv (encode i) = 0 ∧ cwArg (encode i) = arg

/-- The byte of a symbol in ENC.ENCODE's payload: the code in bits 1:0 and zero above (R105, R114). -/
def symbolNumber : Symbol → Byte
  | .dot => 0
  | .dash => 1
  | .gap => 2
  | .invalid => 3

/-- The STATUS numbers of R106. -/
def statusNumber : Status → Nat
  | .ok => 0
  | .bufferOverflow => 1
  | .bufferUnderflow => 2
  | .writeError => 3
  | .readError => 4
  | .retryLimitExceeded => 5
  | .queueFull => 6
  | .lengthError => 7
  | .illegal => 15

/-! ### Responses and frames -/

/-- The response the state holds. -/
def Answered (t : State) (st : Status) (v : Bool) (val : Half) (dout : List Byte) : Prop :=
  t.out.resp = some ⟨st, v, val, dout⟩

/-- `s` with nothing but a response given: what a command that changes no state answers. -/
def responded (s : State) (st : Status) (v : Bool) (val : Half) : State :=
  { s with out := { s.out with resp := some ⟨st, v, val, []⟩ } }

/-- Nothing but ring `r` and the response differ. -/
def OnlyRing (r : Ring) (s t : State) : Prop :=
  (∀ r', r' ≠ r → t.ring r' = s.ring r') ∧ t.ltx = s.ltx ∧ t.lrx = s.lrx ∧ t.fq = s.fq ∧ t.ann = s.ann ∧
  s.SameSurround t

/-- No unit but RBR differs, nor the configuration or what is to come. -/
def OutsideRbr (s t : State) : Prop :=
  t.rbt = s.rbt ∧ t.ltx = s.ltx ∧ t.lrx = s.lrx ∧ t.fq = s.fq ∧ t.ann = s.ann ∧ t.cfg = s.cfg ∧ t.agenda = s.agenda

/-- A byte storage in canonical form that reads as `m` does at every index below `n`. -/
def AlikeBelow (n : Nat) (m m' : Memory) : Prop := Memory.wf m' ∧ ∀ a, a < n → Memory.read m' a = Memory.read m a

/-- `s'` is `s` but for what its storages hold at indices outside their size. -/
def AlikeInside (s s' : State) : Prop :=
  AlikeBelow s.cfg.ringCap s.rbt.mem s'.rbt.mem ∧ AlikeBelow s.cfg.ringCap s.rbr.mem s'.rbr.mem ∧
  AlikeBelow s.cfg.bufSize s.ltx.hb s'.ltx.hb ∧ AlikeBelow s.cfg.bufSize s.lrx.hb s'.lrx.hb ∧
  (Store.wf Symbol.dot s'.ann.seq ∧
    ∀ i, i < s.cfg.seqMax → Store.read Symbol.dot s'.ann.seq i = Store.read Symbol.dot s.ann.seq i) ∧
  s' = { s with
    rbt := { s.rbt with mem := s'.rbt.mem }
    rbr := { s.rbr with mem := s'.rbr.mem }
    ltx := { s.ltx with hb := s'.ltx.hb }
    lrx := { s.lrx with hb := s'.lrx.hb }
    ann := { s.ann with seq := s'.ann.seq } }

/-- The ring gave its `k` oldest bytes: the read cursor and the count moved, storage and write cursor did not. -/
def GaveFront (c : Config) (a b : RingBuf) (k : Nat) : Prop :=
  b.mem = a.mem ∧ b.wp = a.wp ∧ b.rp = (a.rp + k) % c.ringCap ∧ b.cnt = a.cnt - k

/-- The ring took `data` behind its write cursor: byte `i` at `(wp + i) mod C`, every other byte as before. -/
def TookBack (c : Config) (a b : RingBuf) (data : List Byte) : Prop :=
  b.wp = (a.wp + data.length) % c.ringCap ∧ b.rp = a.rp ∧ b.cnt = a.cnt + data.length ∧
  (∀ i x, data[i]? = some x → Memory.read b.mem ((a.wp + i) % c.ringCap) = x) ∧
  ∀ j, (∀ i, i < data.length → j ≠ (a.wp + i) % c.ringCap) → Memory.read b.mem j = Memory.read a.mem j

/-- `out` is the `k` oldest bytes of the ring, oldest first: `out[i] = mem[(rp + i) mod C]`. -/
def FrontBytes (c : Config) (a : RingBuf) (k : Nat) (out : List Byte) : Prop :=
  out.length = k ∧ ∀ i, i < k → out[i]? = some (Memory.read a.mem ((a.rp + i) % c.ringCap))

/-! ### Sequences of transactions -/

/-- Run transactions one after another, collecting the responses; `none` where one is refused or faults. -/
def runAll : List Transaction → State → Option (List Response × State)
  | [], s => some ([], s)
  | x :: xs, s =>
    match runTransaction x s with
    | .next s1 =>
      match s1.out.resp with
      | some r => (runAll xs s1).map fun p => (r :: p.1, p.2)
      | none => none
    | .fault _ => none
    | .refused _ => none

/-- The VALUE of a successful response; a failed command contributes 0 (41_ringbuffer.md R152). -/
def okValue (r : Response) : Nat := if r.status = .ok then r.value.toNat else 0

/-- The sum of the VALUEs of those transactions whose command word decodes to one of `p`. -/
def sumValues (p : Instr → Bool) : List Transaction → List Response → Nat
  | x :: xs, r :: rs =>
    (match decode x.cw with
      | .ok i => if p i then okValue r else 0
      | .error _ => 0) + sumValues p xs rs
  | _, _ => 0

/-- Whether a command is PUSH of ring `r`. -/
def isPush (r : Ring) (i : Instr) : Bool :=
  match r, i with
  | .rbt, .rbtPush _ => true
  | .rbr, .rbrPush _ => true
  | _, _ => false

/-- Whether a command is POP or POPN of ring `r`. -/
def isTake (r : Ring) (i : Instr) : Bool :=
  match r, i with
  | .rbt, .rbtPop _ => true
  | .rbt, .rbtPopn _ => true
  | .rbr, .rbrPop _ => true
  | .rbr, .rbrPopn _ => true
  | _, _ => false

/-- One round of the retry law (42_link_transfer.md R187): the engine faults, then the FAULT command is issued with
`start_ok = 1`. -/
def faultRound (d : Dir) (s : State) : Result :=
  match moveFault d s with
  | .next s1 => exec (faultOf d) { s1 with port := { s1.port with startOk := true } }
  | .fault e => .fault e
  | .refused e => .refused e

/-! ### The tables of 40_common_laws.md R128, 42_link_transfer.md R171 and 60_exceptions.md R311, R320 -/

/-- The rows of R171: direction `d` goes from tag `a` (with retry counter `rc`) to tag `b` because of `e`. -/
def TagRow (cap : Nat) (d : Dir) (e : Event) (rc : Nat) (a b : XferTag) : Prop :=
  (∃ x i, e = .command x ∧ decode x.cw = .ok i ∧
    (((∃ len, d = .tx ∧ i = .ltxStart len) ∨ (d = .rx ∧ i = .lrxStart)) ∧
        a = .idle ∧ b = .active ∧ x.port.startOk = true ∨
      d = .rx ∧ i = .lrxRead ∧ (a = .active ∨ a = .complete) ∧ b = .idle ∨
      d = .tx ∧ i = .ltxDone ∧ a = .complete ∧ b = .idle ∨
      i = faultOf d ∧ a = .error ∧ rc < cap ∧ x.port.startOk = true ∧ b = .active ∨
      i = faultOf d ∧ a = .error ∧ rc < cap ∧ x.port.startOk = false ∧ b = .idle ∨
      i = faultOf d ∧ a = .error ∧ cap ≤ rc ∧ b = .idle)) ∨
  (e = .engComplete d ∧ a = .active ∧ b = .complete) ∨
  (e = .engFault d ∧ a = .active ∧ b = .error)

/-- A row of R128: the annunciator after a TICK, `idx`, `st`, `led` and `tlast` given, the rest as before. -/
def Moved (a b : Annunciator) (st : AnnState) (idx : Nat) (led : Bool) (tlast : Nat) : Prop :=
  b = { a with st := st, idx := idx, led := led, tlast := tlast }

/-- `discard()` (46_annunciator.md R287). -/
def Discarded (a b : Annunciator) : Prop :=
  b = { a with loaded := false, slen := 0, idx := 0, st := .idle, led := false }

/-- The current symbol `seq[idx]`. -/
def current (a : Annunciator) : Symbol := Store.read Symbol.dot a.seq a.idx

/-- What the table of R128 needs of the annunciator before a TICK: ANN-INV (10_state.md R48) without its clause that
the symbol of Signal is a dot or a dash, so that the table's rows for the other symbols are stated too. -/
def TickReady (c : Config) (a : Annunciator) : Prop :=
  (a.led = true ↔ a.st = .signal) ∧ (a.st ≠ .idle → a.loaded = true ∧ a.idx < a.slen) ∧
  (a.loaded = false → a.slen = 0 ∧ a.idx = 0 ∧ a.st = .idle) ∧ a.idx ≤ a.slen ∧ a.slen ≤ c.seqMax ∧
  Store.wf Symbol.dot a.seq

/-- The table of R128, read from the state `s` before a TICK to the annunciator and queue of the state `t` after
it, with the STATUS of the response. -/
def TickRow (s t : State) (status : Status) : Prop :=
  match s.ann.st with
  | .idle =>
    if s.ann.loaded = false then
      match s.fq with
      | [] => t.fq = [] ∧ t.ann = s.ann ∧ t.ann.idx = 0 ∧ t.ann.led = false ∧ status = .ok
      | c :: q =>
        t.fq = q ∧
        match encodeCode s.cfg c with
        | some syms =>
          status = .ok ∧ t.ann.loaded = true ∧ t.ann.slen = syms.length ∧ t.ann.idx = 0 ∧ t.ann.st = .idle ∧
          t.ann.led = false ∧ t.ann.tlast = s.ann.tlast ∧
          (∀ i x, syms[i]? = some x → Store.read Symbol.dot t.ann.seq i = x) ∧
          ∀ i, syms.length ≤ i → Store.read Symbol.dot t.ann.seq i = Store.read Symbol.dot s.ann.seq i
        | none => status = .lengthError ∧ t.ann = s.ann ∧ t.ann.idx = 0 ∧ t.ann.led = false
    else
      t.fq = s.fq ∧ status = .ok ∧
      if s.ann.slen ≤ s.ann.idx then Discarded s.ann t.ann
      else match current s.ann with
        | .dot => Moved s.ann t.ann .signal s.ann.idx true s.port.now
        | .dash => Moved s.ann t.ann .signal s.ann.idx true s.port.now
        | .gap => Moved s.ann t.ann .pause s.ann.idx false s.port.now
        | .invalid => Discarded s.ann t.ann
  | .signal =>
    t.fq = s.fq ∧ status = .ok ∧
    match current s.ann with
    | .dot =>
      if s.cfg.tDot ≤ s.port.now - s.ann.tlast then Moved s.ann t.ann .pause s.ann.idx false s.port.now
      else Moved s.ann t.ann .signal s.ann.idx true s.ann.tlast
    | .dash =>
      if 3 * s.cfg.tDot ≤ s.port.now - s.ann.tlast then Moved s.ann t.ann .pause s.ann.idx false s.port.now
      else Moved s.ann t.ann .signal s.ann.idx true s.ann.tlast
    | .gap => Discarded s.ann t.ann
    | .invalid => Discarded s.ann t.ann
  | .pause =>
    t.fq = s.fq ∧ status = .ok ∧
    match current s.ann with
    | .dot =>
      if s.cfg.tSym ≤ s.port.now - s.ann.tlast then Moved s.ann t.ann .idle (s.ann.idx + 1) false s.port.now
      else Moved s.ann t.ann .pause s.ann.idx false s.ann.tlast
    | .dash =>
      if s.cfg.tSym ≤ s.port.now - s.ann.tlast then Moved s.ann t.ann .idle (s.ann.idx + 1) false s.port.now
      else Moved s.ann t.ann .pause s.ann.idx false s.ann.tlast
    | .gap =>
      if s.cfg.tWord ≤ s.port.now - s.ann.tlast then Moved s.ann t.ann .idle (s.ann.idx + 1) false s.port.now
      else Moved s.ann t.ann .pause s.ann.idx false s.ann.tlast
    | .invalid => Discarded s.ann t.ann

/-- How many TICKs a symbol takes at least: 3 for a dot or a dash, 2 for a gap (46_annunciator.md R291). -/
def symbolTicks : Symbol → Nat
  | .dot => 3
  | .dash => 3
  | .gap => 2
  | .invalid => 1

/-- The TICKs of the symbols of indices `i` to `i + n - 1`. -/
def ticksFrom (a : Annunciator) (i n : Nat) : Nat :=
  ((List.range n).map fun j => symbolTicks (Store.read Symbol.dot a.seq (i + j))).sum

/-- The least number of TICKs from a loaded annunciator to its END, END included (R291): of the current symbol the
phases still to come, then every later symbol. -/
def ticksLeft (a : Annunciator) : Nat :=
  match a.st with
  | .idle => ticksFrom a a.idx (a.slen - a.idx) + 1
  | .signal => ticksFrom a (a.idx + 1) (a.slen - (a.idx + 1)) + 3
  | .pause => ticksFrom a (a.idx + 1) (a.slen - (a.idx + 1)) + 2

/-- The STATUS that R311 gives command `i` in state `s` (first test first, R319). -/
def expectedStatus (i : Instr) (s : State) : Status :=
  let pushStatus (rb : RingBuf) (n : Half) : Status :=
    if s.cfg.ringCap - rb.cnt < n.toNat then .bufferOverflow else .ok
  let popnStatus (n : Half) : Status := if s.cfg.bufSize < n.toNat then .illegal else .ok
  let faultStatus (l : Link) (e : Status) : Status :=
    if l.xs = .error then
      if l.rc < s.cfg.retryCap then (if s.port.startOk then .ok else e) else .retryLimitExceeded
    else .ok
  match i with
  | .rbtPush n => pushStatus s.rbt n
  | .rbrPush n => pushStatus s.rbr n
  | .rbtPopn n => popnStatus n
  | .rbrPopn n => popnStatus n
  | .ltxStart len =>
    if s.ltx.xs ≠ .idle then .illegal
    else if s.cfg.bufSize < len.toNat ∧ s.rbt.cnt < len.toNat then .bufferUnderflow
    else if s.port.startOk then .ok else .writeError
  | .ltxFault => faultStatus s.ltx .writeError
  | .lrxStart => if s.lrx.xs ≠ .idle then .illegal else if s.port.startOk then .ok else .readError
  | .lrxRead =>
    if s.lrx.xs = .error then .readError
    else if (s.lrx.xs = .active ∨ s.lrx.xs = .complete) ∧ s.cfg.ringCap - s.rbr.cnt < s.cfg.bufSize - s.lrx.rem
    then .bufferOverflow else .ok
  | .lrxFault => faultStatus s.lrx .readError
  | .fqEnq _ => if s.fq.length < s.cfg.queueCap then .ok else .queueFull
  | .encEncode v => if encodeCode s.cfg v = none then .lengthError else .ok
  | .annTick =>
    if s.ann.st = .idle ∧ s.ann.loaded = false ∧ (∃ c ∈ s.fq.head?, encodeCode s.cfg c = none) then .lengthError
    else .ok
  | .rbtPop _ | .rbtClear | .rbtLen | .rbtIsempty | .rbtAvail | .rbtCap | .rbtIsfull => .ok
  | .rbrPop _ | .rbrClear | .rbrLen | .rbrIsempty | .rbrAvail | .rbrCap | .rbrIsfull => .ok
  | .ltxDone | .ltxStatus | .ltxRetries | .lrxStatus | .lrxRetries | .lrxIdle | .fqDeq => .ok

/-- The state changes that a command makes with an error, as R320 lists them. -/
def ErrorRow (i : Instr) (e : Status) (s t : State) : Prop :=
  match i, e with
  | .ltxStart len, .writeError =>
    let m := min (min len.toNat s.cfg.bufSize) s.rbt.cnt
    GaveFront s.cfg s.rbt t.rbt m ∧
    (∀ j, j < m → Memory.read t.ltx.hb j = Memory.read s.rbt.mem ((s.rbt.rp + j) % s.cfg.ringCap)) ∧
    (∀ j, m ≤ j → Memory.read t.ltx.hb j = Memory.read s.ltx.hb j) ∧
    t.ltx.tl = m ∧ t.ltx.rem = m ∧ t.ltx.ff = false ∧ t.ltx.xs = .idle ∧ t.ltx.rc = s.ltx.rc ∧
    t.rbr = s.rbr ∧ t.lrx = s.lrx ∧ t.fq = s.fq ∧ t.ann = s.ann
  | .lrxStart, .readError =>
    t.lrx = { s.lrx with tl := s.cfg.bufSize, rem := s.cfg.bufSize, ff := false, xs := .idle } ∧
    t.rbt = s.rbt ∧ t.rbr = s.rbr ∧ t.ltx = s.ltx ∧ t.fq = s.fq ∧ t.ann = s.ann
  | .ltxFault, .writeError =>
    t.ltx = { s.ltx with ff := false, rc := s.ltx.rc + 1, rem := s.ltx.tl, xs := .idle } ∧
    t.rbt = s.rbt ∧ t.rbr = s.rbr ∧ t.lrx = s.lrx ∧ t.fq = s.fq ∧ t.ann = s.ann
  | .lrxFault, .readError =>
    t.lrx = { s.lrx with ff := false, rc := s.lrx.rc + 1, rem := s.lrx.tl, xs := .idle } ∧
    t.rbt = s.rbt ∧ t.rbr = s.rbr ∧ t.ltx = s.ltx ∧ t.fq = s.fq ∧ t.ann = s.ann
  | .ltxFault, .retryLimitExceeded =>
    t.ltx = { s.ltx with ff := false, rc := 0, xs := .idle } ∧
    t.rbt = s.rbt ∧ t.rbr = s.rbr ∧ t.lrx = s.lrx ∧ t.fq = s.fq ∧ t.ann = s.ann
  | .lrxFault, .retryLimitExceeded =>
    t.lrx = { s.lrx with ff := false, rc := 0, xs := .idle } ∧
    t.rbt = s.rbt ∧ t.rbr = s.rbr ∧ t.ltx = s.ltx ∧ t.fq = s.fq ∧ t.ann = s.ann
  | .annTick, .lengthError =>
    (∃ c, s.fq = c :: t.fq) ∧ t.ann = s.ann ∧ t.rbt = s.rbt ∧ t.rbr = s.rbr ∧ t.ltx = s.ltx ∧ t.lrx = s.lrx
  | _, _ => s.SameUnits t

/-- The commands that have an output payload: its length is VALUE when STATUS is OK (30_encoding.md R105). -/
def hasOutput : Instr → Bool
  | .rbtPop _ | .rbtPopn _ | .rbrPop _ | .rbrPopn _ | .encEncode _ => true
  | .rbtPush _ | .rbtClear | .rbtLen | .rbtIsempty | .rbtAvail | .rbtCap | .rbtIsfull => false
  | .rbrPush _ | .rbrClear | .rbrLen | .rbrIsempty | .rbrAvail | .rbrCap | .rbrIsfull => false
  | .ltxStart _ | .ltxDone | .ltxFault | .ltxStatus | .ltxRetries => false
  | .lrxStart | .lrxRead | .lrxFault | .lrxStatus | .lrxRetries | .lrxIdle => false
  | .fqEnq _ | .fqDeq | .annTick => false

/-- The decimal digits of `v`, most significant first; one digit 0 for 0. -/
def decimalDigits (v : Nat) : List Nat := if v = 0 then [0] else (Nat.digits 10 v).reverse

/-- The optical sequence of a number as the spec words it: the five symbols of each decimal digit, single gaps
between the groups (45_code_encoder.md R260). -/
def opticalSequence (c : Config) (v : Nat) : List Symbol :=
  List.intercalate [Symbol.gap] ((decimalDigits v).map fun g => rowSymbols (patRow c g))

end Sys2Proof.Claims

open Sys2Proof Sys2Proof.Machine Sys2Proof.Claims

/-! ### Encoding -/

/-- The decoder reads back every command from its word (30_encoding.md R101, R108). -/
def Obligations.DecodeOfEncode : Prop := ∀ i : Instr, decode (encode i) = .ok i

/-- Each command has one word: a word that decodes is the encoding of what it decodes to (R101, R108). -/
def Obligations.EncodeOfDecode : Prop := ∀ (cw : Word) (i : Instr), decode cw = .ok i → encode i = cw

/-- Every word either matches exactly one row of R108, its command's own, or decodes to nothing (R109). -/
def Obligations.EveryWordIsOneRowOrIllegal : Prop :=
  ∀ cw : Word,
    ((∃ i, decode cw = .ok i) ↔ ∃ r ∈ commandTable, r.matches cw = true) ∧
    (∀ r ∈ commandTable, ∀ r' ∈ commandTable, r.matches cw = true → r'.matches cw = true → r = r') ∧
    ∀ i, decode cw = .ok i → ∃ r ∈ commandTable, r.mnemonic = mnemonicOf i ∧ r.matches cw = true

/-- The reserved spaces of R110 are exactly the illegal words, each named by the first check of R109 it fails. -/
def Obligations.ReservedWordsFailTheChecksInOrder : Prop :=
  ∀ cw : Word,
    let u := (cwUnit cw).toNat
    let o := (cwOp cw).toNat
    let unlisted := ((u = 1 ∨ u = 2) ∧ 9 ≤ o) ∨ (u = 3 ∧ 5 ≤ o) ∨ (u = 4 ∧ 6 ≤ o) ∨ (u = 5 ∧ 2 ≤ o) ∨
      ((u = 6 ∨ u = 7) ∧ 1 ≤ o)
    let takesArg := ((u = 1 ∨ u = 2) ∧ o ≤ 2) ∨ ((u = 3 ∨ u = 5 ∨ u = 6) ∧ o = 0)
    (decode cw = .error .reservedField ↔ cwRsv cw ≠ 0) ∧
    (decode cw = .error .reservedUnit ↔ cwRsv cw = 0 ∧ (u = 0 ∨ 8 ≤ u)) ∧
    (decode cw = .error .reservedOp ↔ cwRsv cw = 0 ∧ unlisted) ∧
    (decode cw = .error .argNotZero ↔
      cwRsv cw = 0 ∧ 1 ≤ u ∧ u ≤ 7 ∧ ¬ unlisted ∧ ¬ takesArg ∧ cwArg cw ≠ 0)

/-- An illegal word is answered Illegal, takes and gives no payload and changes no state (R109, R110). -/
def Obligations.IllegalWordsChangeNothing : Prop :=
  ∀ (x : Transaction) (s : State) (e : DecodeError), decode x.cw = .error e →
    ∃ t, runTransaction x s = .next t ∧ s.SameUnits t ∧ Answered t .illegal false 0 [] ∧
      t.out.resp.map responseWord = some 0xF0000000#32 ∧ t.port = x.port ∧ t.cfg = s.cfg ∧
      t.staging = s.staging ∧ t.agenda = s.agenda

/-- Words written out from R101 and R108 decode to the commands they stand for. -/
def Obligations.WrittenOutWordsDecode : Prop :=
  decode 0x10000003#32 = .ok (.rbtPush 3) ∧ decode 0x21000004#32 = .ok (.rbrPop 4) ∧
  decode 0x3000FFFF#32 = .ok (.ltxStart 0xFFFF) ∧ decode 0x45000000#32 = .ok .lrxIdle ∧
  decode 0x5000000C#32 = .ok (.fqEnq 12) ∧ decode 0x6000007B#32 = .ok (.encEncode 123) ∧
  decode 0x70000000#32 = .ok .annTick ∧ decode 0x10010003#32 = .error .reservedField

/-! ### Step -/

/-- A transaction at the head of the agenda whose word decodes to `i` runs `i` on the state with the transaction's
inputs sampled, the event taken off the agenda and the outputs of the step before cleared (R100, 00_scope.md R10; the
agenda and the outputs are the model's own: log entries 3 and 6). -/
def Obligations.StepRunsTheDecodedCommand : Prop :=
  ∀ (s : State) (x : Transaction) (rest : List Event) (i : Instr),
    s.agenda = .command x :: rest → decode x.cw = .ok i →
    step s = exec i { s with agenda := rest, out := .none, port := x.port }

/-- Every refusal of a command is one of two: a PUSH that fits whose payload is not ARG bytes long (30_encoding.md R103
calls it one that cannot be formed; that the model refuses it is log entry 8), and a TICK whose `now` lies before
`tlast` (60_exceptions.md R330, log entry 7). -/
def Obligations.CommandsRefuseOnlyOutsideThePremises : Prop :=
  ∀ (i : Instr) (s : State) (e : Refusal),
    exec i s = .refused e ↔
      ((∃ r n, i = pushOf r n ∧ n.toNat ≤ s.cfg.ringCap - (s.ring r).cnt ∧ s.port.din.length ≠ n.toNat ∧
          e = .payloadLength) ∨
        (i = .annTick ∧ s.port.now < s.ann.tlast ∧ e = .timeBackwards))

/-! ### Ring buffer (41_ringbuffer.md) -/

/-- PUSH (R140): all bytes are admitted behind the write cursor, or none with BufferOverflow. -/
def Obligations.PushAdmitsAllOrNothing : Prop :=
  ∀ (r : Ring) (n : Half) (s : State), (s.ring r).Inv s.cfg → s.port.din.length = n.toNat →
    Encoded (pushOf r n) (ringUnit r) 0 n ∧
    ∃ t, exec (pushOf r n) s = .next t ∧ OnlyRing r s t ∧
      (ringEmpty (t.ring r) = true ↔ (t.ring r).cnt = 0) ∧
      (ringFull s.cfg (t.ring r) = true ↔ (t.ring r).cnt = s.cfg.ringCap) ∧
      if s.cfg.ringCap - (s.ring r).cnt < n.toNat then
        t.ring r = s.ring r ∧ Answered t .bufferOverflow false 0 []
      else TookBack s.cfg (s.ring r) (t.ring r) s.port.din ∧ Answered t .ok true n []

/-- POP (R141): the `min(m, cnt)` oldest bytes, never an error. -/
def Obligations.PopReturnsTheOldestBytes : Prop :=
  ∀ (r : Ring) (m : Half) (s : State), s.cfg.wf → (s.ring r).Inv s.cfg →
    Encoded (popOf r m) (ringUnit r) 1 m ∧
    ∃ t k out, exec (popOf r m) s = .next t ∧ OnlyRing r s t ∧ k.toNat = min m.toNat (s.ring r).cnt ∧
      GaveFront s.cfg (s.ring r) (t.ring r) k.toNat ∧ FrontBytes s.cfg (s.ring r) k.toNat out ∧
      Answered t .ok true k out ∧
      (ringEmpty (t.ring r) = true ↔ (t.ring r).cnt = 0) ∧
      (ringFull s.cfg (t.ring r) = true ↔ (t.ring r).cnt = s.cfg.ringCap)

/-- POPN (R142): for `n <= N` exactly POP n, for `n > N` Illegal with no state change. -/
def Obligations.PopnIsABoundedPop : Prop :=
  ∀ (r : Ring) (n : Half) (s : State), s.cfg.wf → (s.ring r).Inv s.cfg →
    Encoded (popnOf r n) (ringUnit r) 2 n ∧
    ∃ t, exec (popnOf r n) s = .next t ∧
      if s.cfg.bufSize < n.toNat then s.SameUnits t ∧ s.SameSurround t ∧ Answered t .illegal false 0 []
      else exec (popOf r n) s = .next t ∧ OnlyRing r s t ∧
        ∃ k out, k.toNat = min n.toNat (s.ring r).cnt ∧ GaveFront s.cfg (s.ring r) (t.ring r) k.toNat ∧
          FrontBytes s.cfg (s.ring r) k.toNat out ∧ Answered t .ok true k out

/-- CLEAR (R143): the reset state of the instance, whatever was before. -/
def Obligations.ClearRestoresTheResetRing : Prop :=
  ∀ (r : Ring) (s : State), 1 ≤ s.cfg.ringCap →
    Encoded (clearOf r) (ringUnit r) 3 0 ∧
    ∃ t, exec (clearOf r) s = .next t ∧ OnlyRing r s t ∧ Answered t .ok false 0 [] ∧
      (t.ring r).wp = 0 ∧ (t.ring r).rp = 0 ∧ (t.ring r).cnt = 0 ∧
      (∀ a, Memory.read (t.ring r).mem a = 0) ∧ t.ring r = State.reset.ring r ∧
      ringEmpty (t.ring r) = true ∧ ringFull s.cfg (t.ring r) = false ∧
      ringAvail s.cfg (t.ring r) = s.cfg.ringCap

/-- LEN, ISEMPTY, CAP and ISFULL (R144, R145, R147, R148): they read `cnt` and the configuration and change
nothing. -/
def Obligations.RingQueriesReadTheCount : Prop :=
  ∀ (r : Ring) (s : State), s.cfg.wf → (s.ring r).Inv s.cfg →
    let rb := s.ring r
    (Encoded (lenOf r) (ringUnit r) 4 0 ∧
      ∃ v : Half, exec (lenOf r) s = .next (responded s .ok true v) ∧ v.toNat = rb.cnt ∧ v.toNat ≤ s.cfg.ringCap) ∧
    (Encoded (isemptyOf r) (ringUnit r) 5 0 ∧
      exec (isemptyOf r) s = .next (responded s .ok true (if rb.cnt = 0 then 1 else 0)) ∧
      (rb.cnt = s.cfg.ringCap → rb.wp = rb.rp ∧ exec (isemptyOf r) s = .next (responded s .ok true 0))) ∧
    (Encoded (capOf r) (ringUnit r) 7 0 ∧
      ∃ v : Half, exec (capOf r) s = .next (responded s .ok true v) ∧ v.toNat = s.cfg.ringCap) ∧
    (Encoded (isfullOf r) (ringUnit r) 8 0 ∧
      exec (isfullOf r) s = .next (responded s .ok true (if rb.cnt = s.cfg.ringCap then 1 else 0)))

/-- AVAIL (R146): `C - cnt`, and a PUSH succeeds exactly when it asks for no more. -/
def Obligations.AvailTellsWhatAPushAdmits : Prop :=
  ∀ (r : Ring) (s : State), s.cfg.wf → (s.ring r).Inv s.cfg →
    Encoded (availOf r) (ringUnit r) 6 0 ∧
    ∃ v : Half, exec (availOf r) s = .next (responded s .ok true v) ∧ v.toNat = s.cfg.ringCap - (s.ring r).cnt ∧
      ∀ n : Half, s.port.din.length = n.toNat →
        ((∃ t, exec (pushOf r n) s = .next t ∧ Answered t .ok true n []) ↔ n.toNat ≤ v.toNat)

/-- The FIFO law (R150): the cursor form refines the byte sequence `content(RB)` of 10_state.md R26. -/
def Obligations.RingRefinesAByteQueue : Prop :=
  ∀ (r : Ring) (n : Half) (s : State), s.cfg.wf → (s.ring r).Inv s.cfg →
    let content (t : State) := ringContent s.cfg (t.ring r)
    (s.port.din.length = n.toNat →
      ∃ t, exec (pushOf r n) s = .next t ∧
        (Answered t .ok true n [] ∧ content t = content s ++ s.port.din ∨
          Answered t .bufferOverflow false 0 [] ∧ content t = content s)) ∧
    (∃ t, exec (popOf r n) s = .next t ∧
      Answered t .ok true (natValue ((content s).take n.toNat).length) ((content s).take n.toNat) ∧
      content t = (content s).drop n.toNat) ∧
    (n.toNat ≤ s.cfg.bufSize → ∃ t, exec (popnOf r n) s = .next t ∧
      Answered t .ok true (natValue ((content s).take n.toNat).length) ((content s).take n.toNat) ∧
      content t = (content s).drop n.toNat) ∧
    (∃ t, exec (clearOf r) s = .next t ∧ content t = []) ∧
    exec (lenOf r) s = .next (responded s .ok true (natValue (content s).length))

/-- The accounting law (R152), over any sequence of PUSH, POP and POPN of a ring that starts empty. -/
def Obligations.LengthIsPushedLessPopped : Prop :=
  ∀ (r : Ring) (xs : List Transaction) (rs : List Response) (s t : State),
    s.cfg.wf → (s.ring r).Inv s.cfg → (s.ring r).cnt = 0 →
    (∀ x ∈ xs, ∃ i, decode x.cw = .ok i ∧ (isPush r i = true ∨ isTake r i = true)) →
    runAll xs s = some (rs, t) →
    (t.ring r).cnt + sumValues (isTake r) xs rs = sumValues (isPush r) xs rs

/-- No command tells apart two rings of equal content: cursors and bytes outside the content are unobservable
(10_state.md R26, R28). -/
def Obligations.CursorsAreUnobservable : Prop :=
  ∀ (i : Instr) (s s' t : State), s.Inv → s'.Inv → s' = { s with rbt := s'.rbt, rbr := s'.rbr } →
    ringContent s.cfg s'.rbt = ringContent s.cfg s.rbt → ringContent s.cfg s'.rbr = ringContent s.cfg s.rbr →
    exec i s = .next t →
    ∃ t', exec i s' = .next t' ∧ t' = { t with rbt := t'.rbt, rbr := t'.rbr } ∧
      ringContent s.cfg t'.rbt = ringContent s.cfg t.rbt ∧ ringContent s.cfg t'.rbr = ringContent s.cfg t.rbr

/-! ### Link transfer (42_link_transfer.md) -/

/-- LTX.START (R177): the three errors in their order, else `min(min(len, N), cnt)` bytes move from RBT to `hb`. -/
def Obligations.LtxStartLoadsAndStarts : Prop :=
  ∀ (len : Half) (s : State), s.cfg.wf → s.rbt.Inv s.cfg → Memory.wf s.ltx.hb →
    Encoded (.ltxStart len) 3 0 len ∧
    ∃ t, exec (.ltxStart len) s = .next t ∧ s.SameSurround t ∧
      t.rbr = s.rbr ∧ t.lrx = s.lrx ∧ t.fq = s.fq ∧ t.ann = s.ann ∧ t.ltx.rc = s.ltx.rc ∧
      if s.ltx.xs ≠ .idle then t.rbt = s.rbt ∧ t.ltx = s.ltx ∧ Answered t .illegal false 0 []
      else if s.cfg.bufSize < len.toNat ∧ s.rbt.cnt < len.toNat then
        t.rbt = s.rbt ∧ t.ltx = s.ltx ∧ Answered t .bufferUnderflow false 0 []
      else
        let m := min (min len.toNat s.cfg.bufSize) s.rbt.cnt
        GaveFront s.cfg s.rbt t.rbt m ∧
        (∀ i, i < m → Memory.read t.ltx.hb i = Memory.read s.rbt.mem ((s.rbt.rp + i) % s.cfg.ringCap)) ∧
        (∀ i, m ≤ i → Memory.read t.ltx.hb i = Memory.read s.ltx.hb i) ∧
        t.ltx.tl = m ∧ t.ltx.rem = m ∧
        if s.port.startOk then
          t.ltx.xs = .active ∧ t.ltx.ff = s.ltx.ff ∧ Answered t .ok true (natValue m) [] ∧ (natValue m).toNat = m
        else t.ltx.xs = .idle ∧ t.ltx.ff = false ∧ Answered t .writeError false 0 []

/-- LTX.DONE (R178): a Complete transfer is acknowledged, otherwise nothing changes. -/
def Obligations.LtxDoneAcknowledges : Prop :=
  Encoded .ltxDone 3 1 0 ∧
  ∀ s : State,
    (s.ltx.xs = .complete →
      exec .ltxDone s = .next (responded { s with ltx := { s.ltx with xs := .idle, rc := 0 } } .ok true 1)) ∧
    (s.ltx.xs ≠ .complete → exec .ltxDone s = .next (responded s .ok true 0))

/-- FAULT with its restart (R179, R184, R188): up to three retries from byte 0, then RetryLimitExceeded. -/
def Obligations.FaultRestartsOrGivesUp : Prop :=
  ∀ (d : Dir) (s : State),
    let l := s.link d
    Encoded (faultOf d) (linkUnit d) 2 0 ∧
    (l.xs ≠ .error → exec (faultOf d) s = .next (responded s .ok true 0)) ∧
    (l.xs = .error → l.rc < s.cfg.retryCap → s.port.startOk = true →
      exec (faultOf d) s = .next (responded
        (s.setLink d { l with ff := false, rc := l.rc + 1, rem := l.tl, xs := .active }) .ok true
        (natValue (l.rc + 1)))) ∧
    (l.xs = .error → l.rc < s.cfg.retryCap → s.port.startOk = false →
      exec (faultOf d) s = .next (responded
        (s.setLink d { l with ff := false, rc := l.rc + 1, rem := l.tl, xs := .idle })
        (match d with | .tx => .writeError | .rx => .readError) false 0)) ∧
    (l.xs = .error → s.cfg.retryCap ≤ l.rc →
      exec (faultOf d) s = .next (responded
        (s.setLink d { l with ff := false, rc := 0, xs := .idle }) .retryLimitExceeded false 0))

/-- STATUS and RETRIES (R180, R181, R185, R186): tag in VALUE[1:0], fault flag in VALUE[2]; the retry counter. -/
def Obligations.LinkQueriesReadTagFlagAndCounter : Prop :=
  ∀ (d : Dir) (s : State),
    Encoded (statusOf d) (linkUnit d) 3 0 ∧ Encoded (retriesOf d) (linkUnit d) 4 0 ∧
    (∃ v : Half, exec (statusOf d) s = .next (responded s .ok true v) ∧
      v.toNat = (if (s.link d).ff then 4 else 0) +
        (match (s.link d).xs with | .idle => 0 | .active => 1 | .complete => 2 | .error => 3)) ∧
    ((s.link d).rc ≤ 3 →
      ∃ v : Half, exec (retriesOf d) s = .next (responded s .ok true v) ∧ v.toNat = (s.link d).rc)

/-- LRX.START (R182): a receive sized to the full transfer buffer, from Idle only. -/
def Obligations.LrxStartArmsTheWholeBuffer : Prop :=
  Encoded .lrxStart 4 0 0 ∧
  ∀ s : State,
    (s.lrx.xs ≠ .idle → exec .lrxStart s = .next (responded s .illegal false 0)) ∧
    (s.lrx.xs = .idle → s.port.startOk = true →
      exec .lrxStart s = .next (responded
        { s with lrx := { s.lrx with tl := s.cfg.bufSize, rem := s.cfg.bufSize, xs := .active } } .ok false 0)) ∧
    (s.lrx.xs = .idle → s.port.startOk = false →
      exec .lrxStart s = .next (responded
        { s with lrx := { s.lrx with tl := s.cfg.bufSize, rem := s.cfg.bufSize, ff := false } } .readError false 0))

/-- LRX.READ (R183): ReadError, then BufferOverflow; else the `N - rem` received bytes go behind RBR's content. -/
def Obligations.LrxReadHarvestsIntoTheRing : Prop :=
  ∀ s : State, s.cfg.wf → s.rbr.Inv s.cfg →
    Encoded .lrxRead 4 1 0 ∧
    ∃ t, exec .lrxRead s = .next t ∧ s.SameSurround t ∧ t.rbt = s.rbt ∧ t.ltx = s.ltx ∧ t.fq = s.fq ∧ t.ann = s.ann ∧
      let r := s.cfg.bufSize - s.lrx.rem
      match s.lrx.xs with
      | .error => t.rbr = s.rbr ∧ t.lrx = s.lrx ∧ Answered t .readError false 0 []
      | .idle => t.rbr = s.rbr ∧ t.lrx = s.lrx ∧ Answered t .ok true 0 []
      | _ =>
        if s.cfg.ringCap - s.rbr.cnt < r then t.rbr = s.rbr ∧ t.lrx = s.lrx ∧ Answered t .bufferOverflow false 0 []
        else
          t.lrx = { s.lrx with xs := .idle, rc := 0 } ∧ Answered t .ok true (natValue r) [] ∧
          (natValue r).toNat = r ∧
          ∃ data, TookBack s.cfg s.rbr t.rbr data ∧ data.length = r ∧
            ∀ i, i < r → data[i]? = some (Memory.read s.lrx.hb i)

/-- LRX.IDLE (R189): the external input, no state change. -/
def Obligations.LrxIdleAnswersTheLine : Prop :=
  Encoded .lrxIdle 4 5 0 ∧
  ∀ s : State, exec .lrxIdle s = .next (responded s .ok true (if s.port.lineIdle then 1 else 0))

/-- The retry law (R187): from `rc = 0` and a started transfer, four faults in a row are answered OK(1), OK(2),
OK(3) and RetryLimitExceeded, and then the counter is 0. -/
def Obligations.FourthFaultExceedsTheCap : Prop :=
  ∀ (d : Dir) (s : State), s.cfg.wf → (s.link d).xs = .active → (s.link d).rc = 0 →
    ∃ s1 s2 s3 s4, faultRound d s = .next s1 ∧ faultRound d s1 = .next s2 ∧ faultRound d s2 = .next s3 ∧
      faultRound d s3 = .next s4 ∧
      Answered s1 .ok true 1 [] ∧ Answered s2 .ok true 2 [] ∧ Answered s3 .ok true 3 [] ∧
      Answered s4 .retryLimitExceeded false 0 [] ∧ (s4.link d).rc = 0 ∧ (s4.link d).xs = .idle

/-- The transitions of `xs` (R171): a step changes a direction's tag only by a row of the table, or by reset. -/
def Obligations.TagsMoveOnlyAsTheTableSays : Prop :=
  ∀ (s t : State) (e : Event) (rest : List Event) (d : Dir),
    s.agenda = e :: rest → step s = .next t → (t.link d).xs ≠ (s.link d).xs →
    e = .blockReset ∨ TagRow s.cfg.retryCap d e (s.link d).rc (s.link d).xs (t.link d).xs

/-- The engine moves (R172 to R175): when each is enabled and what it does. That a move not enabled is refused is the
model's: log entry 11. -/
def Obligations.EngineMovesAsTheContractSays : Prop :=
  ∀ (s : State) (b : Byte) (d : Dir), 1 ≤ s.cfg.bufSize → s.ltx.tl ≤ s.cfg.bufSize → Memory.wf s.lrx.hb →
    (s.lrx.xs = .active ∧ 0 < s.lrx.rem →
      ∃ t, runEvent (.engRxByte b) s = .next t ∧ t = { s with lrx := t.lrx } ∧
        t.lrx = { s.lrx with hb := t.lrx.hb, rem := s.lrx.rem - 1 } ∧
        ∀ a, Memory.read t.lrx.hb a =
          if a = s.cfg.bufSize - s.lrx.rem then b else Memory.read s.lrx.hb a) ∧
    (¬ (s.lrx.xs = .active ∧ 0 < s.lrx.rem) → runEvent (.engRxByte b) s = .refused .engineMoveDisabled) ∧
    (s.ltx.xs = .active ∧ 0 < s.ltx.rem →
      runEvent .engTxByte s = .next { s with
        ltx := { s.ltx with rem := s.ltx.rem - 1 }
        out := { s.out with wireOut := some (Memory.read s.ltx.hb (s.ltx.tl - s.ltx.rem)) } }) ∧
    (¬ (s.ltx.xs = .active ∧ 0 < s.ltx.rem) → runEvent .engTxByte s = .refused .engineMoveDisabled) ∧
    ((s.link d).xs = .active ∧ (s.link d).rem = 0 →
      runEvent (.engComplete d) s = .next (s.setLink d { s.link d with xs := .complete })) ∧
    (¬ ((s.link d).xs = .active ∧ (s.link d).rem = 0) →
      runEvent (.engComplete d) s = .refused .engineMoveDisabled) ∧
    ((s.link d).xs = .active →
      runEvent (.engFault d) s = .next (s.setLink d { s.link d with xs := .error, ff := true })) ∧
    ((s.link d).xs ≠ .active → runEvent (.engFault d) s = .refused .engineMoveDisabled)

/-- What an engine never does (R176): no move unless a direction is Active, no write to `rc`, `tl`, a ring, the queue
or the annunciator, no tag set to Idle or Active, no flag cleared. -/
def Obligations.EnginesKeepToTheirBuffers : Prop :=
  ∀ (s t : State) (e : Event) (b : Byte) (d d' : Dir),
    e = .engRxByte b ∨ e = .engTxByte ∨ e = .engComplete d ∨ e = .engFault d → runEvent e s = .next t →
    (s.ltx.xs = .active ∨ s.lrx.xs = .active) ∧
    ((s.link d').xs ≠ .active → t.link d' = s.link d') ∧
    (t.link d').rc = (s.link d').rc ∧ (t.link d').tl = (s.link d').tl ∧
    t.rbt = s.rbt ∧ t.rbr = s.rbr ∧ t.fq = s.fq ∧ t.ann = s.ann ∧
    ((t.link d').xs ≠ (s.link d').xs → (t.link d').xs = .complete ∨ (t.link d').xs = .error) ∧
    ((s.link d').ff = true → (t.link d').ff = true) ∧ t.ltx.hb = s.ltx.hb

/-! ### Fault queue (44_fault_queue.md) -/

/-- FQ.ENQ (R240): append below 256 entries, else QueueFull and the code is dropped. -/
def Obligations.EnqueueAppendsOrDrops : Prop :=
  ∀ (code : Half) (s : State), s.cfg.wf →
    Encoded (.fqEnq code) 5 0 code ∧
    exec (.fqEnq code) s =
      if s.fq.length < 256 then .next (responded { s with fq := s.fq ++ [code] } .ok false 0)
      else .next (responded s .queueFull false 0)

/-- FQ.DEQ (R241): the head entry with V = 1, or V = 0 and no change. -/
def Obligations.DequeueTakesTheHead : Prop :=
  Encoded .fqDeq 5 1 0 ∧
  ∀ s : State,
    (s.fq = [] → exec .fqDeq s = .next (responded s .ok false 0)) ∧
    ∀ c q, s.fq = c :: q → exec .fqDeq s = .next (responded { s with fq := q } .ok true c)

/-! ### Encoder (45_code_encoder.md) -/

/-- ENC.ENCODE (R261): one payload byte per symbol, 0 for a dot, 1 for a dash, 2 for a gap, 3 for INVALID
(30_encoding.md R105, R114); LengthError only where SEQMAX is below the 29 that R264 requires. -/
def Obligations.EncodeAnswersItsSymbols : Prop :=
  ∀ (v : Half) (s : State),
    Encoded (.encEncode v) 6 0 v ∧
    (s.cfg.wf → ∃ syms, encodeCode s.cfg v = some syms ∧ syms.length ≤ 29 ∧
      exec (.encEncode v) s = .next { s with out := { s.out with
        resp := some ⟨.ok, true, natValue syms.length, syms.map symbolNumber⟩ } }) ∧
    (encodeCode s.cfg v = none → exec (.encEncode v) s = .next (responded s .lengthError false 0))

/-- The algorithm of R263 yields the decimal digits, most significant first, single gaps between (R260), unless that
is longer than SEQMAX. -/
def Obligations.EncodeSpellsTheDecimalDigits : Prop :=
  ∀ (c : Config) (v : Half),
    encodeCode c v =
      if (opticalSequence c v.toNat).length ≤ c.seqMax then some (opticalSequence c v.toNat) else none

/-- The length law (R264): `6 * D(v) - 1` symbols, never INVALID, never two gaps in a row, a dot or a dash at both
ends. -/
def Obligations.EncodedLengthIsSixPerDigitLessOne : Prop :=
  ∀ (c : Config) (v : Half), c.wf →
    ∃ syms, encodeCode c v = some syms ∧ syms.length = 6 * (decimalDigits v.toNat).length - 1 ∧ syms.length ≤ 29 ∧
      Symbol.invalid ∉ syms ∧
      (∀ i, syms[i]? = some Symbol.gap → syms[i + 1]? ≠ some Symbol.gap) ∧
      (syms.head? = some .dot ∨ syms.head? = some .dash) ∧
      (syms.getLast? = some .dot ∨ syms.getLast? = some .dash)

/-- The digit pattern ROM of the standard configuration in its closed form (R262). Rows 4, 6, 7, 8 and 9 are general
knowledge, not the source's: log entry 2. -/
def Obligations.PatternRomHasTheClosedForm : Prop :=
  ∀ g : Nat, g < 10 →
    rowSymbols (patRow Config.standard g) =
      if g = 0 then List.replicate 5 .dash
      else if g ≤ 5 then List.replicate g .dot ++ List.replicate (5 - g) .dash
      else List.replicate (g - 5) .dash ++ List.replicate (10 - g) .dot

/-! ### Annunciator (46_annunciator.md) -/

/-- TICK follows the table of 40_common_laws.md R128, one row per case, and answers `{led, st}` as they are after
it, with V = 1 where it is OK (R281; the V of LengthError is said in `Obligations.EveryCommandRespondsOnce`); everything
but the annunciator and the queue is unchanged. -/
def Obligations.TickFollowsTheTable : Prop :=
  ∀ s : State, TickReady s.cfg s.ann → s.ann.tlast ≤ s.port.now →
    Encoded .annTick 7 0 0 ∧
    ∃ t status valid v, exec .annTick s = .next t ∧ TickRow s t status ∧ Answered t status valid v [] ∧
      (status = .ok → valid = true) ∧
      v.toNat = (if t.ann.led then 4 else 0) + (match t.ann.st with | .idle => 0 | .signal => 1 | .pause => 2) ∧
      t.rbt = s.rbt ∧ t.rbr = s.rbr ∧ t.ltx = s.ltx ∧ t.lrx = s.lrx ∧ s.SameSurround t

/-- Durations are lower bounds (R290): the LED goes off no earlier than the symbol's on-time after it went on, and a
pause ends no earlier than its length after it began. -/
def Obligations.DurationsAreLowerBounds : Prop :=
  ∀ s t : State, s.ann.Inv s.cfg → s.ann.Playable → exec .annTick s = .next t →
    (s.ann.led = true → t.ann.led = false →
      ∃ m, litMark (current s.ann) = some m ∧ s.ann.tlast + onTime s.cfg m ≤ s.port.now) ∧
    (s.ann.st = .pause → t.ann.st ≠ .pause →
      ∃ p, pauseTime s.cfg (current s.ann) = some p ∧ s.ann.tlast + p ≤ s.port.now)

/-- One code at a time (R289): while a sequence is loaded a TICK takes nothing from the queue and leaves the sequence
store alone, and it is unloaded only from Idle with every symbol played. -/
def Obligations.OneCodeAtATime : Prop :=
  ∀ s t : State, s.ann.Inv s.cfg → s.ann.Playable → exec .annTick s = .next t → s.ann.loaded = true →
    t.fq = s.fq ∧ t.ann.seq = s.ann.seq ∧
    (t.ann.loaded = false → s.ann.st = .idle ∧ s.ann.idx = s.ann.slen) ∧
    (t.ann.loaded = true → t.ann.slen = s.ann.slen ∧ (t.ann.idx = s.ann.idx ∨ t.ann.idx = s.ann.idx + 1))

/-- The least number of TICKs (R291): each TICK of a loaded sequence advances the playback by at most one phase, and
by exactly one when the current duration has elapsed. -/
def Obligations.EachTickPlaysAtMostOnePhase : Prop :=
  ∀ s t : State, s.ann.Inv s.cfg → s.ann.Playable → s.ann.loaded = true → exec .annTick s = .next t →
    (t.ann.loaded = true → ticksLeft s.ann ≤ ticksLeft t.ann + 1) ∧
    (t.ann.loaded = false → ticksLeft s.ann = 1) ∧
    (s.ann.tlast + 3 * s.cfg.tDot ≤ s.port.now → s.ann.tlast + s.cfg.tSym ≤ s.port.now →
      s.ann.tlast + s.cfg.tWord ≤ s.port.now →
      (1 < ticksLeft s.ann → t.ann.loaded = true ∧ ticksLeft t.ann + 1 = ticksLeft s.ann) ∧
      (ticksLeft s.ann = 1 → t.ann.loaded = false))

/-! ### Reset, invariants, the whole block -/

/-- The reset values (10_state.md R60) and the level outputs after reset. -/
def Obligations.ResetLeavesEveryElementClear : Prop :=
  (∀ r, (State.reset.ring r).wp = 0 ∧ (State.reset.ring r).rp = 0 ∧ (State.reset.ring r).cnt = 0 ∧
    ∀ a, Memory.read (State.reset.ring r).mem a = 0) ∧
  (∀ d, (State.reset.link d).xs = .idle ∧ (State.reset.link d).ff = false ∧ (State.reset.link d).rc = 0 ∧
    (State.reset.link d).rem = 0 ∧ (State.reset.link d).tl = 0 ∧ ∀ a, Memory.read (State.reset.link d).hb a = 0) ∧
  State.reset.fq = [] ∧ State.reset.ann.st = .idle ∧ State.reset.ann.loaded = false ∧
  (∀ i, Store.read Symbol.dot State.reset.ann.seq i = .dot) ∧ State.reset.ann.slen = 0 ∧
  State.reset.ann.idx = 0 ∧ State.reset.ann.tlast = 0 ∧ State.reset.ann.led = false ∧
  ledOut State.reset = false ∧ evTxComplete State.reset = false ∧ evTxError State.reset = false ∧
  evRxComplete State.reset = false ∧ evRxError State.reset = false

/-- The reset event (70_reset_and_hazards.md R350) puts every element of the block at its reset value, from any
state, and leaves the configuration. -/
def Obligations.BlockResetRestoresEveryElement : Prop :=
  ∀ (s : State) (rest : List Event), s.agenda = .blockReset :: rest →
    ∃ t, step s = .next t ∧ State.reset.SameUnits t ∧ t.cfg = s.cfg ∧ t.agenda = rest

/-- The reset state meets the invariants (R352), and no HB.OUT is in progress in it, which is the model's (log entry
6). -/
def Obligations.ResetMeetsTheInvariants : Prop :=
  State.reset.Inv ∧ State.reset.ann.Playable ∧ State.reset.staging = .idle

/-- Every step keeps the invariants RB-INV, LT-INV and ANN-INV, the ranges and the canonical form of every storage
(10_state.md R25, R36, R48), and HB.OUT stays within its staging area of PKT bytes (43_host_bridge.md R223). -/
def Obligations.EveryStepKeepsTheInvariants : Prop := ∀ s t : State, s.Inv → step s = .next t → t.Inv

/-- No INVALID symbol ever enters the part of the sequence store that is played (46_annunciator.md R288). -/
def Obligations.EveryStepKeepsSequencesPlayable : Prop :=
  ∀ s t : State, s.Inv → s.ann.Playable → step s = .next t → t.ann.Playable

/-- No step from a state that meets the invariants ends in the fault `outsideStorage`, which ENG.RXBYTE, ENG.TXBYTE and
ANN.TICK raise. The fault is the model's (log entry 10); the storages the other commands use are the subject of
`Obligations.StoragesAreUsedWithinTheirSize`. -/
def Obligations.NoStepLeavesAStorage : Prop := ∀ (s : State) (f : Fault), s.Inv → step s ≠ .fault f

/-- No step changes the configuration (70_reset_and_hazards.md R352). -/
def Obligations.ConfigurationNeverChanges : Prop := ∀ s t : State, step s = .next t → t.cfg = s.cfg

/-- Errors are precise (60_exceptions.md R320): a command that responds with an error changes exactly what the table
lists. -/
def Obligations.ErrorsChangeOnlyWhatTheTableLists : Prop :=
  ∀ (i : Instr) (s t : State) (r : Response), s.rbt.Inv s.cfg → Memory.wf s.ltx.hb →
    exec i s = .next t → t.out.resp = some r → r.status ≠ .ok → ErrorRow i r.status s t

/-- The complete list of errors with the condition of each (60_exceptions.md R311, R319). -/
def Obligations.StatusIsAsTheErrorTableSays : Prop :=
  ∀ (i : Instr) (s t : State), exec i s = .next t →
    ∃ r, t.out.resp = some r ∧ r.status = expectedStatus i s

/-- Every command gives exactly one response (30_encoding.md R104, R105): DOUT is VALUE bytes for POP, POPN and ENCODE
with STATUS OK and empty otherwise; every error carries V = 0 and VALUE = 0 (60_exceptions.md R310; for TICK's
LengthError, where R281 has V = 1, that is the model's reading: log entry 12). The word of a response has the number of
its STATUS (R106) in bits 31:28, V in bit 16, VALUE in bits 15:0 and zeros between (R104). -/
def Obligations.EveryCommandRespondsOnce : Prop :=
  (∀ r : Response,
    ((responseWord r).extractLsb' 28 4).toNat = statusNumber r.status ∧ (responseWord r).extractLsb' 17 11 = 0 ∧
    (responseWord r).getLsbD 16 = r.valid ∧ (responseWord r).extractLsb' 0 16 = r.value) ∧
  ∀ (i : Instr) (s t : State), s.rbt.cnt ≤ 65535 → s.rbr.cnt ≤ 65535 → exec i s = .next t →
    ∃ r, t.out.resp = some r ∧
      r.dout.length = (if hasOutput i = true ∧ r.status = .ok then r.value.toNat else 0) ∧
      (r.status ≠ .ok → r.valid = false ∧ r.value = 0)

/-- Each unit's state is reached only by the commands R70 lists, and by no command what lies outside the block. -/
def Obligations.UnitsAreReachedOnlyByTheirCommands : Prop :=
  ∀ (i : Instr) (s t : State), exec i s = .next t →
    s.SameSurround t ∧
    (t.rbt ≠ s.rbt → (∃ n, i = .rbtPush n ∨ i = .rbtPop n ∨ i = .rbtPopn n ∨ i = .ltxStart n) ∨ i = .rbtClear) ∧
    (t.rbr ≠ s.rbr → (∃ n, i = .rbrPush n ∨ i = .rbrPop n ∨ i = .rbrPopn n) ∨ i = .rbrClear ∨ i = .lrxRead) ∧
    (t.ltx ≠ s.ltx → (∃ n, i = .ltxStart n) ∨ i = .ltxDone ∨ i = .ltxFault) ∧
    (t.lrx ≠ s.lrx → i = .lrxStart ∨ i = .lrxRead ∨ i = .lrxFault) ∧
    (t.fq ≠ s.fq → (∃ n, i = .fqEnq n) ∨ i = .fqDeq ∨ i = .annTick) ∧
    (t.ann ≠ s.ann → i = .annTick)

/-! ### Pseudo-operations (43_host_bridge.md, 44_fault_queue.md) -/

/-- HB.IN (R221): nothing before enumeration or without a packet; else the packet is pushed whole into RBT or lost. That
HB.IN is one event is the model's choice (log entry 13). -/
def Obligations.HostInAdmitsWholePackets : Prop :=
  ∀ s : State, s.cfg.wf → s.rbt.Inv s.cfg →
    (∀ inbound, runEvent (.hbIn false inbound) s = .next { s with out := { s.out with bridge := some (.ok 0) } }) ∧
    runEvent (.hbIn true none) s = .next { s with out := { s.out with bridge := some (.ok 0) } } ∧
    ∀ p, 1 ≤ p.length → p.length ≤ s.cfg.pktSize →
      ∃ t, runEvent (.hbIn true (some p)) s = .next t ∧ t.rbr = s.rbr ∧ t.ltx = s.ltx ∧ t.lrx = s.lrx ∧
        t.fq = s.fq ∧ t.ann = s.ann ∧ t.cfg = s.cfg ∧ t.agenda = s.agenda ∧ t.staging = s.staging ∧
        if s.cfg.ringCap - s.rbt.cnt < p.length then t.rbt = s.rbt ∧ t.out.bridge = some .bufferOverflow
        else TookBack s.cfg s.rbt t.rbt p ∧ t.out.bridge = some (.ok p.length)

/-- HB.OUT (R222) part by part: up to PKT bytes are drained into the staging area; the endpoint takes `a` of them and
no unit changes; the rest goes behind whatever RBR holds by then, or is lost where it no longer fits. That the parts are
three steps is the model's (log entry 13). -/
def Obligations.HostOutDrainsAndReenqueues : Prop :=
  ∀ s : State, s.cfg.wf → s.rbr.Inv s.cfg → s.staging.held ≤ s.cfg.pktSize →
    (s.staging = .idle →
      ∃ t, runEvent .hbOut s = .next t ∧
        ringContent s.cfg t.rbr = (ringContent s.cfg s.rbr).drop s.cfg.pktSize ∧
        OutsideRbr s t ∧ t.out.toHost = s.out.toHost ∧
        if s.rbr.cnt = 0 then t.staging = .idle ∧ t.out.bridge = some (.ok 0)
        else t.staging = .staged ((ringContent s.cfg s.rbr).take s.cfg.pktSize) ∧ t.out.bridge = s.out.bridge) ∧
    (∀ data a, s.staging = .staged data → a ≤ data.length →
      runEvent (.hbOutWrite a) s = .next
        { s with
          staging := if a < data.length then .taken a (data.drop a) else .idle
          out := { s.out with
            toHost := data.take a
            bridge := if a < data.length then s.out.bridge else some (.ok a) } }) ∧
    ∀ a rest, s.staging = .taken a rest →
      ∃ t, runEvent .hbOutRequeue s = .next t ∧ t.staging = .idle ∧ OutsideRbr s t ∧ t.out.toHost = s.out.toHost ∧
        if s.cfg.ringCap - s.rbr.cnt < rest.length then t.rbr = s.rbr ∧ t.out.bridge = some .bufferOverflow
        else ringContent s.cfg t.rbr = ringContent s.cfg s.rbr ++ rest ∧ t.out.bridge = some (.ok a)

/-- DISPATCH (R243, R245): the code of the fault, mapped into the central taxonomy, is appended to the queue or
dropped, and nothing else of the block changes. That `code_of` sees both faults, and the images of Device and
Initialization faults, are the model's: log entry 14. -/
def Obligations.DispatchOnlyEnqueues : Prop :=
  ∀ (f : SubsystemFault) (s : State), s.cfg.wf →
    ∃ t, runEvent (.dispatch f) s = .next t ∧
      t.fq = (if s.fq.length < 256 then
        s.fq ++ [Config.codeOf f (match f with
          | .ringBuffer .overflow | .ringBuffer .underflow | .ringBuffer .empty => some .bufferOverflow
          | .dma _ | .uart _ => some .dma
          | .usb _ => some .usb
          | .led _ => some .led
          | .device g => some g
          | .initialization _ => none)] else s.fq) ∧
      t.rbt = s.rbt ∧ t.rbr = s.rbr ∧ t.ltx = s.ltx ∧ t.lrx = s.lrx ∧ t.ann = s.ann ∧
      t.cfg = s.cfg ∧ t.staging = s.staging ∧ t.agenda = s.agenda

/-! ### Storages -/

/-- The canonical form makes equal storages equal data: two byte storages in it that read alike are the same list.
The form is the model's own (log entry 9). -/
def Obligations.CanonicalStoragesThatReadAlikeAreEqual : Prop :=
  ∀ m m' : Memory, m.wf → m'.wf → (∀ a, Memory.read m a = Memory.read m' a) → m = m'

/-! ### Output lines -/

/-- The output lines (10_state.md R54), in every state: `led` is `ANN.led`, and each event line stands for one tag of
one direction. -/
def Obligations.OutputLinesFollowTheState : Prop :=
  ∀ s : State,
    ledOut s = s.ann.led ∧ (evTxComplete s = true ↔ s.ltx.xs = .complete) ∧ (evTxError s = true ↔ s.ltx.xs = .error) ∧
    (evRxComplete s = true ↔ s.lrx.xs = .complete) ∧ (evRxError s = true ↔ s.lrx.xs = .error)

/-! ### The bounds of the storages (20_memory.md R70, R73, R74) -/

/-- Every step uses the storages within their size: of two states whose storages read alike below C, N and SEQMAX,
whatever lies above, a step gives the same outputs and again storages that read alike there; and what lies above stays
as it was but where a clear or a reset puts the whole unit back. -/
def Obligations.StoragesAreUsedWithinTheirSize : Prop :=
  ∀ s s' t : State, s.Inv → AlikeInside s s' → step s = .next t →
    ∃ t', step s' = .next t' ∧ AlikeInside t t' ∧
      (∀ r, t'.ring r = .atReset ∨
        ∀ a, s.cfg.ringCap ≤ a → Memory.read (t'.ring r).mem a = Memory.read (s'.ring r).mem a) ∧
      (∀ d, t'.link d = .atReset ∨
        ∀ a, s.cfg.bufSize ≤ a → Memory.read (t'.link d).hb a = Memory.read (s'.link d).hb a) ∧
      (t'.ann = .atReset ∨
        ∀ i, s.cfg.seqMax ≤ i → Store.read Symbol.dot t'.ann.seq i = Store.read Symbol.dot s'.ann.seq i)
end

