-- ==== Sys2Proof/Tests/Slice0.lean ====
section
/-! SUPPORT. Tests: the checks of well-formedness with a term each refuses, every command's word written out from
30_encoding.md R101 and R108, one or two steps per command whose expected values are those of 95_test_vectors.md (V-RB,
V-LTX, V-RETRY, V-LRX, V-FQ, V-ENC, V-ANN, V-HB) or of a rule's own example, and for every statement with hypotheses a
concrete state and operands that meet them. -/

namespace Sys2Proof.Tests

open Sys2Proof.Machine Sys2Proof.Claims

/-! ### Small states -/

/-- The test parameter set P0 of 95_test_vectors.md. -/
def p0 : Config where
  ringCap := 8
  bufSize := 4
  pktSize := 4
  queueCap := 256
  seqMax := 100
  retryCap := 3
  tDot := 200
  tSym := 200
  tWord := 1400
  pat4 := ⟨.dot, .dot, .dot, .dot, .dash⟩
  pat6 := ⟨.dash, .dot, .dot, .dot, .dot⟩
  pat7 := ⟨.dash, .dash, .dot, .dot, .dot⟩
  pat8 := ⟨.dash, .dash, .dash, .dot, .dot⟩
  pat9 := ⟨.dash, .dash, .dash, .dash, .dot⟩

/-- The reset state under P0. -/
def blank : State := { State.reset with cfg := p0 }

/-- Both rings hold 1 to 6 from index 0 (V-RB row 3). -/
def sixRing : RingBuf := ⟨[(0, 1), (1, 2), (2, 3), (3, 4), (4, 5), (5, 6)], 6, 0, 6⟩

def six : State := { blank with rbt := sixRing, rbr := sixRing }

/-- A full ring whose cursors stand at 3 (V-RB row 12). -/
def fullRing : RingBuf :=
  ⟨[(0, 0x0A), (1, 0x0B), (2, 0x0C), (3, 4), (4, 5), (5, 6), (6, 7), (7, 8)], 3, 3, 8⟩

def full : State := { blank with rbt := fullRing, rbr := fullRing }

/-- The inputs of a transaction. -/
def inputs (din : List Byte) (now : Nat) (startOk : Bool) : Port := ⟨din, now, true, startOk⟩

def State.given (s : State) (din : List Byte) (now : Nat) (startOk : Bool) : State :=
  { s with port := inputs din now startOk }

/-- A transaction of a command. -/
def ask (i : Instr) (din : List Byte) : Transaction := ⟨encode i, inputs din 0 true⟩

/-- A direction with a transfer of three bytes in the given tag. -/
def linkAt (xs : XferTag) (ff : Bool) (rc rem : Nat) : Link := ⟨[(0, 0x41), (1, 0x42), (2, 0x43)], xs, ff, rc, rem, 3⟩

/-- A receive in the given tag (V-LRX). -/
def recvAt (xs : XferTag) (ff : Bool) (rc rem : Nat) : Link := ⟨[(0, 0x10), (1, 0x11), (2, 0x12)], xs, ff, rc, rem, 4⟩

/-- The annunciator with the sequence DOT DASH GAP DOT loaded. -/
def playing (st : AnnState) (idx tlast : Nat) (led : Bool) : Annunciator :=
  ⟨st, true, [(1, .dash), (2, .gap)], 4, idx, tlast, led⟩

/-- What a result answers. -/
def answerOf : Result → Option Response
  | .next t => t.out.resp
  | .fault _ => none
  | .refused _ => none

/-- A piece of the next state. -/
def nextOf {α : Type} (f : State → α) : Result → Option α
  | .next t => some (f t)
  | .fault _ => none
  | .refused _ => none

/-! ### Well-formedness: each check refuses a term -/

theorem test_config_p0_wf : p0.wf := by decide

theorem test_config_refused :
    ¬ Config.wf { p0 with ringCap := 0 } ∧ ¬ Config.wf { p0 with ringCap := 65536 } ∧
    ¬ Config.wf { p0 with bufSize := 0 } ∧ ¬ Config.wf { p0 with bufSize := 65536 } ∧
    ¬ Config.wf { p0 with pktSize := 0 } ∧ ¬ Config.wf { p0 with pktSize := 65536 } ∧
    ¬ Config.wf { p0 with queueCap := 255 } ∧ ¬ Config.wf { p0 with seqMax := 28 } ∧
    ¬ Config.wf { p0 with retryCap := 4 } ∧ ¬ Config.wf { p0 with tWord := 200 } := by
  and_intros <;> decide

/-- R109 check (5), R142: POPN of more than N = 4. -/
theorem test_popn_operand_refused :
    (Instr.rbtPopn 4).wellFormed p0 = true ∧ (Instr.rbtPopn 5).wellFormed p0 = false ∧
    (Instr.rbrPopn 5).wellFormed p0 = false := by
  and_intros <;> decide

/-- R103: a PUSH with a byte too few, a command other than PUSH with a payload. -/
theorem test_payload_refused :
    (ask (.rbtPush 2) [1, 2]).wellFormed = true ∧ (ask (.rbtPush 2) [1]).wellFormed = false ∧
    (ask .rbtLen [1]).wellFormed = false := by
  and_intros <;> decide

/-! ### Decoding: words written out from R101 and R108 -/

theorem test_decode_rbt :
    decode 0x10001234 = .ok (.rbtPush 0x1234) ∧ decode 0x11005678 = .ok (.rbtPop 0x5678) ∧
    decode 0x12009ABC = .ok (.rbtPopn 0x9ABC) ∧ decode 0x13000000 = .ok .rbtClear ∧
    decode 0x14000000 = .ok .rbtLen ∧ decode 0x15000000 = .ok .rbtIsempty ∧ decode 0x16000000 = .ok .rbtAvail ∧
    decode 0x17000000 = .ok .rbtCap ∧ decode 0x18000000 = .ok .rbtIsfull := by
  and_intros <;> decide

theorem test_decode_rbr :
    decode 0x20001234 = .ok (.rbrPush 0x1234) ∧ decode 0x21005678 = .ok (.rbrPop 0x5678) ∧
    decode 0x22009ABC = .ok (.rbrPopn 0x9ABC) ∧ decode 0x23000000 = .ok .rbrClear ∧
    decode 0x24000000 = .ok .rbrLen ∧ decode 0x25000000 = .ok .rbrIsempty ∧ decode 0x26000000 = .ok .rbrAvail ∧
    decode 0x27000000 = .ok .rbrCap ∧ decode 0x28000000 = .ok .rbrIsfull := by
  and_intros <;> decide

theorem test_decode_ltx :
    decode 0x3000FFFF = .ok (.ltxStart 65535) ∧ decode 0x31000000 = .ok .ltxDone ∧
    decode 0x32000000 = .ok .ltxFault ∧ decode 0x33000000 = .ok .ltxStatus ∧
    decode 0x34000000 = .ok .ltxRetries := by
  and_intros <;> decide

theorem test_decode_lrx :
    decode 0x40000000 = .ok .lrxStart ∧ decode 0x41000000 = .ok .lrxRead ∧ decode 0x42000000 = .ok .lrxFault ∧
    decode 0x43000000 = .ok .lrxStatus ∧ decode 0x44000000 = .ok .lrxRetries ∧
    decode 0x45000000 = .ok .lrxIdle := by
  and_intros <;> decide

theorem test_decode_fq_enc_ann :
    decode 0x5000000C = .ok (.fqEnq 12) ∧ decode 0x51000000 = .ok .fqDeq ∧
    decode 0x600003E8 = .ok (.encEncode 1000) ∧ decode 0x70000000 = .ok .annTick := by
  and_intros <;> decide

/-- V-ILL. -/
theorem test_decode_illegal :
    decode 0x00000000 = .error .reservedUnit ∧ decode 0x80000000 = .error .reservedUnit ∧
    decode 0xF0000000 = .error .reservedUnit ∧ decode 0x19000000 = .error .reservedOp ∧
    decode 0x2F000000 = .error .reservedOp ∧ decode 0x35000000 = .error .reservedOp ∧
    decode 0x46000000 = .error .reservedOp ∧ decode 0x52000000 = .error .reservedOp ∧
    decode 0x61000000 = .error .reservedOp ∧ decode 0x71000000 = .error .reservedOp ∧
    decode 0x10010003 = .error .reservedField ∧ decode 0x13000001 = .error .argNotZero ∧
    decode 0x40000001 = .error .argNotZero ∧ decode 0x70000001 = .error .argNotZero ∧
    decode 0x80010001 = .error .reservedField := by
  and_intros <;> decide

/-- The response words of V-RB, V-LTX and V-FQ. -/
theorem test_response_words :
    responseWord ⟨.ok, true, 6, []⟩ = 0x00010006 ∧ responseWord ⟨.ok, false, 0, []⟩ = 0 ∧
    responseWord ⟨.bufferOverflow, false, 0, []⟩ = 0x10000000 ∧ responseWord ⟨.queueFull, false, 0, []⟩ = 0x60000000 ∧
    responseWord ⟨.illegal, false, 0, []⟩ = 0xF0000000 := by
  and_intros <;> decide

/-! ### Ring buffers (V-RB) -/

/-- R140's example: a PUSH that wraps. -/
theorem test_rbt_push :
    nextOf State.rbt (exec (.rbtPush 3) (State.given { blank with rbt := ⟨[], 6, 6, 0⟩ } [0xA1, 0xA2, 0xA3] 0 true)) =
      some ⟨[(0, 0xA3), (6, 0xA1), (7, 0xA2)], 1, 6, 3⟩ := by decide

/-- V-RB row 4: one byte too many. -/
theorem test_rbt_push_overflow :
    exec (.rbtPush 3) (State.given six [7, 8, 9] 0 true) =
      .next (responded (State.given six [7, 8, 9] 0 true) .bufferOverflow false 0) := by rfl

/-- V-RB row 17 on RBR: n = C with the cursors at 3. -/
theorem test_rbr_push :
    nextOf State.rbr (exec (.rbrPush 8) (State.given { blank with rbr := ⟨[], 3, 3, 0⟩ }
      [0x11, 0x22, 0x33, 0x44, 0x55, 0x66, 0x77, 0x88] 0 true)) =
      some ⟨[(0, 0x66), (1, 0x77), (2, 0x88), (3, 0x11), (4, 0x22), (5, 0x33), (6, 0x44), (7, 0x55)], 3, 3, 8⟩ := by decide

/-- V-RB row 16, from row 15's state: two runs. -/
theorem test_rbt_pop :
    answerOf (exec (.rbtPop 65535) { blank with rbt := { fullRing with rp := 7, cnt := 4 } }) =
      some ⟨.ok, true, 4, [8, 0x0A, 0x0B, 0x0C]⟩ := by decide

/-- V-RB row 11 on RBR: POP does not clear. -/
theorem test_rbr_pop :
    nextOf State.rbr (exec (.rbrPop 3) six) = some { sixRing with rp := 3, cnt := 3 } ∧
    answerOf (exec (.rbrPop 3) six) = some ⟨.ok, true, 3, [1, 2, 3]⟩ := by
  and_intros <;> decide

/-- V-RB rows 14 and 13. -/
theorem test_rbt_popn :
    answerOf (exec (.rbtPopn 4) full) = some ⟨.ok, true, 4, [4, 5, 6, 7]⟩ ∧
    exec (.rbtPopn 5) full = .next (responded full .illegal false 0) := by
  and_intros <;> rfl

/-- V-RB row 21 on RBR: POPN truncates. -/
theorem test_rbr_popn :
    answerOf (exec (.rbrPopn 4) { blank with rbr := ⟨[(3, 0xEE), (4, 0xFF)], 5, 3, 2⟩ }) =
      some ⟨.ok, true, 2, [0xEE, 0xFF]⟩ := by decide

/-- V-RB row 23. -/
theorem test_rbt_clear : exec .rbtClear { six with rbr := .atReset } = .next (responded blank .ok false 0) := by rfl

theorem test_rbr_clear : exec .rbrClear { six with rbt := .atReset } = .next (responded blank .ok false 0) := by rfl

/-- V-RB rows 6 to 9 and 25. -/
theorem test_rbt_queries :
    exec .rbtLen full = .next (responded full .ok true 8) ∧ exec .rbtIsempty full = .next (responded full .ok true 0) ∧
    exec .rbtAvail full = .next (responded full .ok true 0) ∧ exec .rbtCap full = .next (responded full .ok true 8) ∧
    exec .rbtIsfull full = .next (responded full .ok true 1) := by
  and_intros <;> rfl

theorem test_rbr_queries :
    exec .rbrLen six = .next (responded six .ok true 6) ∧ exec .rbrIsempty blank = .next (responded blank .ok true 1) ∧
    exec .rbrAvail six = .next (responded six .ok true 2) ∧ exec .rbrCap six = .next (responded six .ok true 8) ∧
    exec .rbrIsfull six = .next (responded six .ok true 0) := by
  and_intros <;> rfl

/-! ### Link transfer (V-LTX, V-RETRY, V-LRX) -/

/-- V-LTX row 3: truncation to N. -/
theorem test_ltx_start :
    nextOf State.ltx (exec (.ltxStart 6) (State.given six [] 0 true)) =
      some ⟨[(0, 1), (1, 2), (2, 3), (3, 4)], .active, false, 0, 4, 4⟩ ∧
    nextOf State.rbt (exec (.ltxStart 6) (State.given six [] 0 true)) = some { sixRing with rp := 4, cnt := 2 } := by
  and_intros <;> decide

/-- V-LTX rows 4 and 9. -/
theorem test_ltx_start_errors :
    answerOf (exec (.ltxStart 6) { blank with rbt := { sixRing with wp := 5, cnt := 5 } }) =
      some ⟨.bufferUnderflow, false, 0, []⟩ ∧
    nextOf State.ltx (exec (.ltxStart 3) (State.given six [] 0 false)) =
      some ⟨[(0, 1), (1, 2), (2, 3)], .idle, false, 0, 3, 3⟩ := by
  and_intros <;> decide

/-- V-RETRY sequence B: an intervening success. -/
theorem test_ltx_done :
    exec .ltxDone { blank with ltx := linkAt .complete false 2 0 } =
      .next (responded { blank with ltx := linkAt .idle false 0 0 } .ok true 1) ∧
    exec .ltxDone { blank with ltx := linkAt .idle false 0 0 } =
      .next (responded { blank with ltx := linkAt .idle false 0 0 } .ok true 0) := by
  and_intros <;> rfl

/-- V-RETRY rows 4 and 12. -/
theorem test_ltx_fault :
    nextOf State.ltx (exec .ltxFault (State.given { blank with ltx := linkAt .error true 0 2 } [] 0 true)) =
      some (linkAt .active false 1 3) ∧
    exec .ltxFault { blank with ltx := linkAt .error true 3 2 } =
      .next (responded { blank with ltx := linkAt .idle false 0 2 } .retryLimitExceeded false 0) := by
  and_intros <;> rfl

/-- V-RETRY sequence C: a refused restart. -/
theorem test_ltx_fault_refused :
    nextOf State.ltx (exec .ltxFault (State.given { blank with ltx := linkAt .error true 0 2 } [] 0 false)) =
      some (linkAt .idle false 1 3) := by decide

/-- V-RETRY rows 3 and 9. -/
theorem test_ltx_queries :
    answerOf (exec .ltxStatus { blank with ltx := linkAt .error true 0 2 }) = some ⟨.ok, true, 7, []⟩ ∧
    answerOf (exec .ltxRetries { blank with ltx := linkAt .active false 3 3 }) = some ⟨.ok, true, 3, []⟩ := by
  and_intros <;> decide

/-- V-LRX rows 2 and 3. -/
theorem test_lrx_start :
    nextOf State.lrx (exec .lrxStart (State.given blank [] 0 true)) = some ⟨[], .active, false, 0, 4, 4⟩ ∧
    answerOf (exec .lrxStart { blank with lrx := recvAt .active false 0 4 }) = some ⟨.illegal, false, 0, []⟩ := by
  and_intros <;> decide

/-- V-LRX row 9: the harvest of a partial burst. -/
theorem test_lrx_read :
    nextOf State.rbr (exec .lrxRead { blank with lrx := recvAt .active false 1 1 }) =
      some ⟨[(0, 0x10), (1, 0x11), (2, 0x12)], 3, 0, 3⟩ ∧
    nextOf State.lrx (exec .lrxRead { blank with lrx := recvAt .active false 1 1 }) = some (recvAt .idle false 0 1) := by
  and_intros <;> decide

/-- V-LRX rows 15 and 20: nothing changes. -/
theorem test_lrx_read_errors :
    exec .lrxRead { six with lrx := recvAt .active false 0 1 } =
      .next (responded { six with lrx := recvAt .active false 0 1 } .bufferOverflow false 0) ∧
    exec .lrxRead { six with lrx := recvAt .error true 0 3 } =
      .next (responded { six with lrx := recvAt .error true 0 3 } .readError false 0) := by
  and_intros <;> rfl

/-- V-LRX row 21, and a refused restart. -/
theorem test_lrx_fault :
    exec .lrxFault (State.given { blank with lrx := recvAt .error true 0 3 } [] 0 true) =
      .next (responded (State.given { blank with lrx := recvAt .active false 1 4 } [] 0 true) .ok true 1) ∧
    answerOf (exec .lrxFault (State.given { blank with lrx := recvAt .error true 0 3 } [] 0 false)) =
      some ⟨.readError, false, 0, []⟩ := by
  and_intros <;> rfl

/-- V-LRX rows 12 and 22, and LRX.IDLE with either input (row 8). -/
theorem test_lrx_queries :
    answerOf (exec .lrxStatus { blank with lrx := recvAt .complete false 0 0 }) = some ⟨.ok, true, 2, []⟩ ∧
    answerOf (exec .lrxRetries { blank with lrx := recvAt .active false 1 4 }) = some ⟨.ok, true, 1, []⟩ ∧
    answerOf (exec .lrxIdle { blank with port := ⟨[], 0, true, false⟩ }) = some ⟨.ok, true, 1, []⟩ ∧
    answerOf (exec .lrxIdle { blank with port := ⟨[], 0, false, true⟩ }) = some ⟨.ok, true, 0, []⟩ := by
  and_intros <;> decide

/-- V-LRX row 7 and V-RETRY row 1: engine moves. -/
theorem test_engine_bytes :
    nextOf State.lrx (moveRxByte 0x13 { blank with lrx := recvAt .active false 0 1 }) =
      some ⟨[(0, 0x10), (1, 0x11), (2, 0x12), (3, 0x13)], .active, false, 0, 0, 4⟩ ∧
    nextOf (·.out.wireOut) (moveTxByte { blank with ltx := linkAt .active false 0 2 }) = some (some 0x42) ∧
    moveTxByte { blank with ltx := linkAt .active false 0 0 } = .refused .engineMoveDisabled := by
  and_intros <;> rfl

/-! ### Fault queue, encoder, annunciator (V-FQ, V-ENC, V-ANN) -/

/-- V-FQ row 3, and row 10 in small: a queue of QCAP = 2 entries that is full. -/
theorem test_fq_enq :
    exec (.fqEnq 12) { blank with fq := [5] } = .next (responded { blank with fq := [5, 12] } .ok false 0) ∧
    answerOf (exec (.fqEnq 65535) { blank with fq := [0, 1], cfg := { p0 with queueCap := 2 } }) = some ⟨.queueFull, false, 0, []⟩ := by
  and_intros <;> rfl

/-- V-FQ rows 7 and 8: V tells a code 0 from no code. -/
theorem test_fq_deq :
    exec .fqDeq { blank with fq := [0] } = .next (responded blank .ok true 0) ∧
    exec .fqDeq blank = .next (responded blank .ok false 0) := by
  and_intros <;> rfl

/-- T5: `encode(100)` keeps its zeros; V-ENC: with SEQMAX = 10, `encode(10)` is LengthError. -/
theorem test_enc_encode :
    answerOf (exec (.encEncode 100) blank) =
      some ⟨.ok, true, 17, [0, 1, 1, 1, 1, 2, 1, 1, 1, 1, 1, 2, 1, 1, 1, 1, 1]⟩ ∧
    answerOf (exec (.encEncode 10) { blank with cfg := { p0 with seqMax := 10 } }) =
      some ⟨.lengthError, false, 0, []⟩ := by
  and_intros <;> decide

/-- V-ENC: the longest output, with a pattern row of general knowledge; T5: `encode(0)`. -/
theorem test_enc_corners :
    (encodeCode p0 65535).map List.length = some 29 ∧
    encodeCode p0 0 = some [.dash, .dash, .dash, .dash, .dash] := by
  and_intros <;> decide

/-- V-ANN trace A, ticks 1 and 4: LOAD, and equality counts as elapsed. -/
theorem test_ann_tick :
    nextOf State.ann (exec .annTick { blank with fq := [5] }) = some ⟨.idle, true, [], 5, 0, 0, false⟩ ∧
    exec .annTick (State.given { blank with ann := playing .signal 0 100 true } [] 300 true) =
      .next (responded (State.given { blank with ann := playing .pause 0 300 false } [] 300 true) .ok true 2) := by
  and_intros <;> rfl

/-- V-ANN: one time unit too early, and a GAP's pause of T_WORD = 1400. -/
theorem test_ann_tick_waits :
    exec .annTick (State.given { blank with ann := playing .signal 0 100 true } [] 299 true) =
      .next (responded (State.given { blank with ann := playing .signal 0 100 true } [] 299 true) .ok true 5) ∧
    nextOf State.ann (exec .annTick (State.given { blank with ann := playing .pause 2 50 false } [] 1449 true)) =
      some (playing .pause 2 50 false) ∧
    nextOf State.ann (exec .annTick (State.given { blank with ann := playing .pause 2 50 false } [] 1450 true)) =
      some (playing .idle 3 1450 false) := by
  and_intros <;> rfl

/-! ### Pseudo-operations (V-HB) -/

/-- V-HB: a packet that fits, one that does not, a device not enumerated. -/
theorem test_hb_in :
    nextOf (·.out.bridge) (hostIn true (some [1, 2]) six) = some (some (.ok 2)) ∧
    nextOf (·.out.bridge) (hostIn true (some [1, 2, 3, 4]) six) = some (some .bufferOverflow) ∧
    nextOf (·.out.bridge) (hostIn false (some [1, 2]) six) = some (some (.ok 0)) := by
  and_intros <;> decide

/-- V-HB: a short write puts the remainder behind what RBR still held. -/
theorem test_hb_out :
    nextOf State.staging (hostOutPop six) = some (.staged [1, 2, 3, 4]) ∧
    nextOf (fun t => (t.staging, t.out.toHost)) (hostOutWrite 1 { six with staging := .staged [1, 2, 3, 4] }) =
      some (.taken 1 [2, 3, 4], [1]) ∧
    nextOf (fun t => (ringContent p0 t.rbr, t.out.bridge)) (hostOutRequeue
      { six with rbr := { sixRing with rp := 4, cnt := 2 }, staging := .taken 1 [2, 3, 4] }) =
      some ([5, 6, 2, 3, 4], some (.ok 1)) := by
  and_intros <;> decide

/-- P4 steps 8 to 10: an LRX.READ between the endpoint's write and the re-enqueue. -/
theorem test_hb_out_interleaved :
    (match hostOutWrite 1 { blank with rbr := ⟨[(0, 0x61), (1, 0x62), (2, 0x63)], 3, 3, 0⟩
                                       lrx := ⟨[(0, 0x64), (1, 0x65), (2, 0x66), (3, 0x67)], .complete, false, 0, 0, 4⟩
                                       staging := .staged [0x61, 0x62, 0x63] } with
      | .next s1 => match exec .lrxRead s1 with
        | .next s2 => nextOf State.rbr (hostOutRequeue s2)
        | .fault _ => none
        | .refused _ => none
      | .fault _ => none
      | .refused _ => none) =
      some ⟨[(0, 0x63), (1, 0x62), (2, 0x63), (3, 0x64), (4, 0x65), (5, 0x66), (6, 0x67), (7, 0x62)], 1, 3, 6⟩ := by
  decide

/-- R243 with R246: faults of each taxonomy are dispatched, at their code. -/
theorem test_dispatch :
    nextOf State.fq (dispatchFault (.dma .retryLimitExceeded) { blank with fq := [5] }) =
      some [5, Config.codeOf (.dma .retryLimitExceeded) (some .dma)] ∧
    nextOf State.fq (dispatchFault (.ringBuffer .empty) blank) =
      some [Config.codeOf (.ringBuffer .empty) (some .bufferOverflow)] ∧
    nextOf State.fq (dispatchFault (.initialization 0) blank) = some [Config.codeOf (.initialization 0) none] := by
  and_intros <;> rfl

/-! ### A concrete state and operands that meet the hypotheses of each statement -/

theorem witness_six_ring : p0.wf ∧ sixRing.Inv p0 ∧ fullRing.Inv p0 ∧ (RingBuf.atReset).Inv p0 := by
  and_intros <;> decide

theorem witness_EncodeOfDecode : decode 0x1000012C = .ok (.rbtPush 300) := by decide

theorem witness_IllegalWordsChangeNothing :
    decode (Transaction.mk 0x13000001 (inputs [9] 0 true)).cw = .error .argNotZero := by decide

theorem witness_StepRunsTheDecodedCommand :
    ({ six with agenda := [.command (ask (.rbtPop 2) []), .engTxByte] } : State).agenda =
      .command (ask (.rbtPop 2) []) :: [.engTxByte] ∧
    decode (ask (.rbtPop 2) []).cw = .ok (.rbtPop 2) := by
  and_intros <;> decide

theorem witness_CommandsRefuseOnlyOutsideThePremises :
    exec (pushOf .rbr 2) (State.given six [1] 0 true) = .refused .payloadLength ∧
    exec .annTick (State.given { blank with ann := playing .signal 0 100 true } [] 99 true) = .refused .timeBackwards := by
  and_intros <;> rfl

/-- `n = AVAIL` fills the ring; `n = AVAIL + 1` overflows. -/
theorem witness_PushAdmitsAllOrNothing :
    ((six.ring .rbt).Inv six.cfg ∧ (State.given six [7, 8] 0 true).port.din.length = (2 : Half).toNat ∧
      ¬ six.cfg.ringCap - (six.ring .rbt).cnt < (2 : Half).toNat) ∧
    ((six.ring .rbr).Inv six.cfg ∧ (State.given six [7, 8, 9] 0 true).port.din.length = (3 : Half).toNat ∧
      six.cfg.ringCap - (six.ring .rbr).cnt < (3 : Half).toNat) := by
  and_intros <;> decide

theorem witness_PopReturnsTheOldestBytes : six.cfg.wf ∧ (six.ring .rbt).Inv six.cfg := by
  and_intros <;> decide

/-- `n = N` pops; `n = N + 1` is illegal. -/
theorem witness_PopnIsABoundedPop :
    six.cfg.wf ∧ (six.ring .rbr).Inv six.cfg ∧ ¬ six.cfg.bufSize < (4 : Half).toNat ∧
    six.cfg.bufSize < (5 : Half).toNat := by
  and_intros <;> decide

theorem witness_ClearRestoresTheResetRing : 1 ≤ six.cfg.ringCap := by decide

/-- The empty and the full ring. -/
theorem witness_RingQueriesReadTheCount :
    (blank.cfg.wf ∧ (blank.ring .rbt).Inv blank.cfg ∧ (blank.ring .rbt).cnt = 0) ∧
    full.cfg.wf ∧ (full.ring .rbt).Inv full.cfg ∧ (full.ring .rbt).cnt = full.cfg.ringCap := by
  and_intros <;> decide

theorem witness_AvailTellsWhatAPushAdmits :
    six.cfg.wf ∧ (six.ring .rbt).Inv six.cfg ∧
    (State.given six [7, 8] 0 true).port.din.length = (2 : Half).toNat := by
  and_intros <;> decide

theorem witness_RingRefinesAByteQueue :
    six.cfg.wf ∧ (six.ring .rbr).Inv six.cfg ∧
    (State.given six [7, 8, 9, 10] 0 true).port.din.length = (4 : Half).toNat ∧
    (4 : Half).toNat ≤ six.cfg.bufSize := by
  and_intros <;> decide

theorem witness_LengthIsPushedLessPopped :
    blank.cfg.wf ∧ (blank.ring .rbt).Inv blank.cfg ∧ (blank.ring .rbt).cnt = 0 ∧
    decode (ask (.rbtPush 3) [1, 2, 3]).cw = .ok (.rbtPush 3) ∧ decode (ask (.rbtPopn 2) []).cw = .ok (.rbtPopn 2) ∧
    (runAll [ask (.rbtPush 3) [1, 2, 3], ask (.rbtPopn 2) []] blank).map Prod.fst =
      some [⟨.ok, true, 3, []⟩, ⟨.ok, true, 2, [1, 2]⟩] := by
  and_intros <;> decide

/-- Two rings of equal content at different cursors. -/
theorem witness_contents_agree :
    ringContent p0 ⟨[(0, 2), (7, 1)], 1, 7, 2⟩ = ringContent p0 ⟨[(0, 1), (1, 2)], 2, 0, 2⟩ := by decide

/-- The four cases of R177 with an idle direction, and a direction that is not idle. -/
theorem witness_LtxStartLoadsAndStarts :
    six.cfg.wf ∧ six.rbt.Inv six.cfg ∧ Memory.wf six.ltx.hb ∧ six.ltx.xs = .idle ∧
    (six.cfg.bufSize < (7 : Half).toNat ∧ six.rbt.cnt < (7 : Half).toNat) ∧
    ¬ (six.cfg.bufSize < (6 : Half).toNat ∧ six.rbt.cnt < (6 : Half).toNat) ∧
    Memory.wf (linkAt .active false 0 3).hb ∧ (linkAt .active false 0 3).xs ≠ .idle := by
  and_intros <;> decide

/-- Every tag, `rc` on both sides of the cap, the start accepted and refused. -/
theorem witness_FaultRestartsOrGivesUp :
    (linkAt .error true 2 1).rc < p0.retryCap ∧ p0.retryCap ≤ (linkAt .error true 3 1).rc ∧
    (linkAt .error true 2 1).xs = .error ∧ (linkAt .idle false 0 0).xs ≠ .error ∧
    (State.given six [] 0 true).port.startOk = true ∧ (State.given six [] 0 false).port.startOk = false := by
  and_intros <;> decide

theorem witness_LinkQueries : (linkAt .active false 3 3).rc ≤ 3 := by decide

/-- The four tags that LRX.READ tells apart, and a harvest that does not fit. -/
theorem witness_LrxReadHarvestsIntoTheRing :
    six.cfg.wf ∧ six.rbr.Inv six.cfg ∧ p0.ringCap - six.rbr.cnt < p0.bufSize - (recvAt .active false 0 1).rem ∧
    ¬ p0.ringCap - six.rbr.cnt < p0.bufSize - (recvAt .active false 0 2).rem := by
  and_intros <;> decide

theorem witness_FourthFaultExceedsTheCap :
    p0.wf ∧ (({ blank with ltx := linkAt .active false 0 3 } : State).link .tx).xs = .active ∧
    (({ blank with ltx := linkAt .active false 0 3 } : State).link .tx).rc = 0 := by
  and_intros <;> decide

theorem witness_TagsMoveOnlyAsTheTableSays :
    nextOf (·.ltx.xs) (step { blank with ltx := linkAt .active false 0 0, agenda := [.engComplete .tx] }) =
      some .complete := by decide

theorem witness_EngineMovesAsTheContractSays :
    1 ≤ p0.bufSize ∧ (linkAt .active false 0 2).tl ≤ p0.bufSize ∧ Memory.wf (recvAt .active false 0 1).hb ∧
    ((recvAt .active false 0 1).xs = .active ∧ 0 < (recvAt .active false 0 1).rem) ∧
    ¬ ((recvAt .idle false 0 1).xs = .active ∧ 0 < (recvAt .idle false 0 1).rem) ∧
    ((linkAt .active false 0 0).xs = .active ∧ (linkAt .active false 0 0).rem = 0) := by
  and_intros <;> decide

theorem witness_EnginesKeepToTheirBuffers :
    nextOf (·.ltx) (runEvent (.engFault .tx) { blank with ltx := linkAt .active false 0 2 }) =
      some (linkAt .error true 0 2) := by decide

theorem witness_DequeueTakesTheHead :
    blank.fq = [] ∧ ({ blank with fq := [5, 12] } : State).fq = 5 :: [12] := by
  and_intros <;> decide

theorem witness_EncodeAnswersItsSymbols :
    blank.cfg.wf ∧ encodeCode { p0 with seqMax := 10 } 10 = none := by
  and_intros <;> decide

/-- One state for each row of R128: LOAD with an empty queue, a code, a code too long; END; START on each symbol;
SIGNAL and PAUSE, elapsed or not, and on a symbol that is discarded. -/
theorem witness_TickFollowsTheTable :
    TickReady p0 Annunciator.atReset ∧ encodeCode p0 5 ≠ none ∧ encodeCode { p0 with seqMax := 10 } 10 = none ∧
    TickReady { p0 with seqMax := 10 } Annunciator.atReset ∧
    TickReady p0 (playing .idle 4 100 false) ∧ TickReady p0 (playing .idle 0 100 false) ∧
    TickReady p0 (playing .idle 1 100 false) ∧ TickReady p0 (playing .idle 2 100 false) ∧
    TickReady p0 { playing .idle 1 100 false with seq := [(1, .invalid)] } ∧
    TickReady p0 (playing .signal 1 100 true) ∧ TickReady p0 (playing .signal 2 100 true) ∧
    TickReady p0 (playing .pause 2 100 false) ∧
    TickReady p0 { playing .pause 1 100 false with seq := [(1, .invalid)] } := by
  unfold TickReady; and_intros <;> decide

/-- A dash that ends exactly at its on-time, a gap's pause that ends exactly at its length. -/
theorem witness_DurationsAreLowerBounds :
    ((playing .signal 1 100 true).Inv p0 ∧ (playing .signal 1 100 true).Playable ∧
      nextOf (·.ann.led) (exec .annTick (State.given { blank with ann := playing .signal 1 100 true } [] 700 true)) =
        some false) ∧
    ((playing .pause 2 100 false).Inv p0 ∧ (playing .pause 2 100 false).Playable ∧
      nextOf (·.ann.st) (exec .annTick (State.given { blank with ann := playing .pause 2 100 false } [] 1500 true)) =
        some .idle) := by
  and_intros <;> decide

/-- A TICK that keeps the sequence and the TICK that ends it. -/
theorem witness_OneCodeAtATime :
    ((playing .idle 3 100 false).Inv p0 ∧ (playing .idle 3 100 false).Playable ∧
      nextOf (·.ann.loaded) (exec .annTick (State.given { blank with ann := playing .idle 3 100 false } [] 100 true)) =
        some true) ∧
    ((playing .idle 4 100 false).Inv p0 ∧ (playing .idle 4 100 false).Playable ∧
      nextOf (·.ann.loaded) (exec .annTick (State.given { blank with ann := playing .idle 4 100 false } [] 100 true)) =
        some false) := by
  and_intros <;> decide

theorem witness_EachTickPlaysAtMostOnePhase :
    ticksLeft (playing .idle 4 100 false) = 1 ∧ 1 < ticksLeft (playing .signal 3 100 true) ∧
    (playing .signal 3 100 true).Inv p0 ∧ (playing .signal 3 100 true).Playable ∧
    100 + 3 * p0.tDot ≤ 1500 ∧ 100 + p0.tSym ≤ 1500 ∧ 100 + p0.tWord ≤ 1500 ∧
    nextOf (·.ann.loaded) (exec .annTick (State.given { blank with ann := playing .signal 3 100 true } [] 1500 true)) =
      some true := by
  and_intros <;> decide

theorem witness_BlockResetRestoresEveryElement :
    ({ six with agenda := [.blockReset, .hbOut] } : State).agenda = .blockReset :: [.hbOut] := by decide

/-- A state that meets every invariant: rings in use, a transfer in each direction, a sequence playing. -/
def busy : State :=
  { six with ltx := linkAt .active false 1 2, lrx := recvAt .error true 2 1, fq := [5]
             ann := playing .signal 1 100 true, agenda := [.command (ask (.ltxStart 2) []), .engTxByte] }

theorem witness_busy_inv : busy.Inv ∧ busy.ann.Playable :=
  ⟨⟨by decide, by decide, by decide, by decide, by decide, by decide, by decide, by decide,
    by decide⟩, by decide⟩

/-- The premises of EveryStepKeepsTheInvariants, EveryStepKeepsSequencesPlayable, NoStepLeavesAStorage and
ConfigurationNeverChanges together. -/
theorem witness_step_premises : ∃ t, busy.Inv ∧ busy.ann.Playable ∧ step busy = .next t :=
  ⟨_, witness_busy_inv.1, witness_busy_inv.2, rfl⟩

/-- The premises of CursorsAreUnobservable: RBR's content at other cursors. -/
theorem witness_CursorsAreUnobservable :
    ({ busy with rbr := ⟨[(0, 3), (1, 4), (2, 5), (3, 6), (6, 1), (7, 2)], 4, 6, 6⟩ } : State).Inv ∧ busy.Inv ∧
    ringContent p0 ⟨[(0, 3), (1, 4), (2, 5), (3, 6), (6, 1), (7, 2)], 4, 6, 6⟩ = ringContent p0 busy.rbr ∧
    ∃ t, exec (.rbrPop 4) busy = .next t :=
  ⟨⟨by decide, by decide, by decide, by decide, by decide, by decide, by decide, by decide,
    by decide⟩, witness_busy_inv.1,
    by decide, ⟨_, rfl⟩⟩

/-- `busy` about to start a transmit, and the same with something above each storage. -/
def starting : State :=
  { busy with ltx := linkAt .idle false 1 2, agenda := [.command (ask (.ltxStart 6) [])] }

def startingAbove : State :=
  { starting with
    rbt := { starting.rbt with mem := starting.rbt.mem ++ [(8, 0xAA)] }
    rbr := { starting.rbr with mem := starting.rbr.mem ++ [(9, 0xBB)] }
    ltx := { starting.ltx with hb := starting.ltx.hb ++ [(4, 0xCC)] }
    lrx := { starting.lrx with hb := starting.lrx.hb ++ [(5, 0xDD)] }
    ann := { starting.ann with seq := starting.ann.seq ++ [(100, .gap)] } }

/-- The premises of StoragesAreUsedWithinTheirSize, with a start that moves N bytes and with reset. -/
theorem witness_StoragesAreUsedWithinTheirSize :
    starting.Inv ∧ AlikeInside starting startingAbove ∧ startingAbove ≠ starting ∧
    nextOf (·.ltx.tl) (step starting) = some 4 ∧
    nextOf (·.rbt) (step { starting with agenda := [.blockReset] }) = some .atReset := by
  unfold AlikeInside AlikeBelow; and_intros <;> decide

/-- One error for each row of R320 that changes state, and one that changes none. -/
theorem witness_ErrorsChangeOnlyWhatTheTableLists :
    six.rbt.Inv six.cfg ∧ Memory.wf six.ltx.hb ∧ Memory.wf busy.ltx.hb ∧
    (answerOf (exec (.ltxStart 3) (State.given six [] 0 false))).map Response.status = some .writeError ∧
    (answerOf (exec .lrxStart (State.given six [] 0 false))).map Response.status = some .readError ∧
    (answerOf (exec .lrxFault (State.given busy [] 0 false))).map Response.status = some .readError ∧
    (answerOf (exec .ltxFault { six with ltx := linkAt .error true 2 1 })).map Response.status = some .writeError ∧
    (answerOf (exec .ltxFault { six with ltx := linkAt .error true 3 1 })).map Response.status =
      some .retryLimitExceeded ∧
    (answerOf (exec .lrxFault { six with lrx := recvAt .error true 3 1 })).map Response.status =
      some .retryLimitExceeded ∧
    (answerOf (exec .annTick { six with fq := [10], cfg := { p0 with seqMax := 10 } })).map Response.status =
      some .lengthError ∧
    (answerOf (exec (.ltxStart 7) six)).map Response.status = some .bufferUnderflow := by
  and_intros <;> decide

theorem witness_StatusIsAsTheErrorTableSays : (answerOf (exec (.rbrPopn 5) six)).map Response.status = some .illegal := by decide

/-- A payload, and TICK's LengthError. -/
theorem witness_EveryCommandRespondsOnce :
    six.rbt.cnt ≤ 65535 ∧ six.rbr.cnt ≤ 65535 ∧
    (answerOf (exec (.rbtPopn 4) six)).isSome = true ∧
    answerOf (exec .annTick { six with fq := [10], cfg := { p0 with seqMax := 10 } }) =
      some ⟨.lengthError, false, 0, []⟩ := by
  and_intros <;> decide

theorem witness_UnitsAreReachedOnlyByTheirCommands :
    nextOf (·.rbr.cnt) (exec .lrxRead { blank with lrx := recvAt .complete false 0 0 }) = some 4 := by decide

/-- A packet as long as the space, one byte longer, and one of PKT bytes. -/
theorem witness_HostInAdmitsWholePackets :
    six.cfg.wf ∧ six.rbt.Inv six.cfg ∧ 1 ≤ [1, 2].length ∧ [1, 2, 3, 4].length ≤ six.cfg.pktSize ∧
    ¬ six.cfg.ringCap - six.rbt.cnt < [1, 2].length ∧ six.cfg.ringCap - six.rbt.cnt < [1, 2, 3].length := by
  and_intros <;> decide

/-- Each part of an HB.OUT: nothing staged, with RBR in use and empty; a packet of PKT bytes of which none, some and all
are taken; a remainder that just fits and one that does not. -/
theorem witness_HostOutDrainsAndReenqueues :
    six.cfg.wf ∧ six.rbr.Inv six.cfg ∧ six.staging = .idle ∧ six.rbr.cnt ≠ 0 ∧ blank.rbr.cnt = 0 ∧
    (HostOut.staged [1, 2, 3, 4]).held ≤ six.cfg.pktSize ∧ 0 < 4 ∧ 3 < 4 ∧ ¬ 4 < 4 ∧
    (HostOut.taken 2 [3, 4]).held ≤ six.cfg.pktSize ∧ ¬ six.cfg.ringCap - six.rbr.cnt < ([3, 4] : List Byte).length ∧
    (HostOut.taken 1 [2, 3, 4]).held ≤ six.cfg.pktSize ∧
    six.cfg.ringCap - six.rbr.cnt < ([2, 3, 4] : List Byte).length := by
  and_intros <;> decide

/-- A queue with one place left and a full one. -/
theorem witness_queue_boundary :
    blank.cfg.wf ∧ (List.replicate 255 (7 : Half)).length < 256 ∧ ¬ (List.replicate 256 (7 : Half)).length < 256 :=
  ⟨by decide, by rw [List.length_replicate]; decide, by rw [List.length_replicate]; decide⟩

theorem witness_CanonicalStoragesThatReadAlikeAreEqual :
    Memory.wf sixRing.mem ∧ ∀ a, Memory.read sixRing.mem a = Memory.read sixRing.mem a := ⟨by decide, fun _ => rfl⟩

end Sys2Proof.Tests
end

