-- ==== Sys2Proof/Proofs/Step.lean ====
section
/-! What a step does with the head of the agenda, and what a transaction does with its word: the rules by which later
proofs reach `exec` without unfolding `step` or `runTransaction`. -/

namespace Sys2Proof.Machine

variable {s : State} {e : Event} {rest : List Event} {x : Transaction} {i : Instr}

/-- A step with an event pending. -/
theorem step_of_agenda_cons (hs : s.agenda = e :: rest) : step s = runEvent e (s.begin rest) := by
  simp only [step, hs]

/-- A transaction whose word decodes (30_encoding.md R100). -/
theorem runTransaction_of_decode_ok (hx : decode x.cw = .ok i) :
    runTransaction x s = exec i { s with port := x.port } := by
  simp only [runTransaction, hx]

end Sys2Proof.Machine

namespace Sys2Proof.Claims

open Sys2Proof.Machine

/-- Settles O7: the step runs the transaction on the state begun, and the transaction runs the command its word
decodes to. -/
theorem stepRunsTheDecodedCommand : Obligations.StepRunsTheDecodedCommand := by
  intro s x rest i hs hx
  calc step s
    _ = runTransaction x (s.begin rest) := step_of_agenda_cons hs
    _ = exec i { s.begin rest with port := x.port } := runTransaction_of_decode_ok hx

end Sys2Proof.Claims
end

/-! What keeps the invariant of the whole block (10_state.md R25, R36, R48): the updates of the state, then each shared
operation, each engine move and each pseudo-operation, and so every step. -/

namespace Sys2Proof.Machine

variable {s t : State} {c : Config} {r : Ring} {d : Dir} {n : Nat} {a : Annunciator} {l : Link}

/-! ### The parts of the invariant -/

theorem State.Inv.cfg_wf (h : s.Inv) : s.cfg.wf := h.1

theorem State.Inv.ring_inv (h : s.Inv) (r : Ring) : (s.ring r).Inv s.cfg := by
  obtain ⟨-, ht, hr, -⟩ := h
  cases r
  · exact ht
  · exact hr

theorem State.Inv.link_inv (h : s.Inv) (d : Dir) : (s.link d).Inv s.cfg := by
  obtain ⟨-, -, -, ht, hr, -⟩ := h
  cases d
  · exact ht
  · exact hr

theorem State.Inv.rxFull (h : s.Inv) : s.lrx.RxFull s.cfg := by
  obtain ⟨-, -, -, -, -, hx, -⟩ := h
  exact hx

theorem State.Inv.fq_length_le (h : s.Inv) : s.fq.length ≤ s.cfg.queueCap := by
  obtain ⟨-, -, -, -, -, -, hq, -⟩ := h
  exact hq

theorem State.Inv.ann_inv (h : s.Inv) : s.ann.Inv s.cfg := by
  obtain ⟨-, -, -, -, -, -, -, ha, -⟩ := h
  exact ha

theorem State.Inv.held_le (h : s.Inv) : s.staging.held ≤ s.cfg.pktSize := by
  obtain ⟨-, -, -, -, -, -, -, -, hs⟩ := h
  exact hs

/-! ### The updates of the state -/

theorem respond_inv (h : s.Inv) (st : Status) (v : Bool) (val : Half) (p : List Byte) :
    (respond s st v val p).Inv := h

theorem answer_inv (h : s.Inv) (val : Half) : (answer s val).Inv := respond_inv h ..

theorem acknowledge_inv (h : s.Inv) : (acknowledge s).Inv := respond_inv h ..

theorem raiseError_inv (h : s.Inv) (e : Status) : (raiseError s e).Inv := respond_inv h ..

theorem respondStart_inv (h : s.Inv) (d : Dir) (v : Bool) (val : Half) : (respondStart s d v val).Inv := by
  rcases respondStart_cases (s := s) (d := d) v val with ⟨-, e⟩ | ⟨-, e⟩ <;> rw [e]
  · exact respond_inv h ..
  · exact raiseError_inv h _

theorem setRing_inv (h : s.Inv) {rb : RingBuf} (hr : rb.Inv s.cfg) : (s.setRing r rb).Inv := by
  obtain ⟨hw, hrbt, hrbr, hrest⟩ := h
  cases r
  · exact ⟨hw, hr, hrbr, hrest⟩
  · exact ⟨hw, hrbt, hr, hrest⟩

theorem setLink_inv (h : s.Inv) (hl : l.Inv s.cfg) (hx : d = .rx → l.RxFull s.cfg) : (s.setLink d l).Inv := by
  obtain ⟨hw, hrbt, hrbr, hltx, hlrx, hfull, hrest⟩ := h
  cases d
  · exact ⟨hw, hrbt, hrbr, hl, hlrx, hfull, hrest⟩
  · exact ⟨hw, hrbt, hrbr, hltx, hl, hx rfl, hrest⟩

theorem setLink_tx_inv (h : s.Inv) (hl : l.Inv s.cfg) : (s.setLink .tx l).Inv :=
  setLink_inv h hl fun hd => nomatch hd

theorem setFq_inv (h : s.Inv) {q : List Half} (hq : q.length ≤ s.cfg.queueCap) : { s with fq := q }.Inv := by
  obtain ⟨hw, hrbt, hrbr, hltx, hlrx, hfull, -, hrest⟩ := h
  exact ⟨hw, hrbt, hrbr, hltx, hlrx, hfull, hq, hrest⟩

theorem setAnn_inv (h : s.Inv) (ha : a.Inv s.cfg) : { s with ann := a }.Inv := by
  obtain ⟨hw, hrbt, hrbr, hltx, hlrx, hfull, hq, -, hheld⟩ := h
  exact ⟨hw, hrbt, hrbr, hltx, hlrx, hfull, hq, ha, hheld⟩

theorem setStaging_inv (h : s.Inv) {o : HostOut} (ho : o.held ≤ s.cfg.pktSize) : { s with staging := o }.Inv := by
  obtain ⟨hw, hrbt, hrbr, hltx, hlrx, hfull, hq, ha, -⟩ := h
  exact ⟨hw, hrbt, hrbr, hltx, hlrx, hfull, hq, ha, ho⟩

theorem setPort_inv (h : s.Inv) (p : Port) : { s with port := p }.Inv := h

theorem setOut_inv (h : s.Inv) (o : Outputs) : { s with out := o }.Inv := h

theorem begin_inv (h : s.Inv) (rest : List Event) : (s.begin rest).Inv := h

/-- The invariant of whatever next state an outcome gives. -/
def NextInv (x : Result) : Prop := ∀ t, x = .next t → t.Inv

theorem nextInv_next (h : s.Inv) : NextInv (.next s) := by
  rintro t ⟨⟩
  exact h

theorem nextInv_fault (f : Fault) : NextInv (.fault f) := fun _ ht => nomatch ht

theorem nextInv_refused (f : Refusal) : NextInv (.refused f) := fun _ ht => nomatch ht

/-! ### Ring buffers -/

theorem takeRing_inv (h : s.Inv) : (takeRing r n s).Inv :=
  respond_inv (setRing_inv h (ringDrop_inv (h.ring_inv r) (Nat.min_le_right ..))) ..

theorem pushRing_nextInv (h : s.Inv) : NextInv (pushRing r n s) := by
  rcases pushRing_cases (r := r) (n := n) (s := s) with ⟨-, e⟩ | ⟨-, -, e⟩ | ⟨hn, hlen, e⟩ <;> rw [e]
  · exact nextInv_next (raiseError_inv h _)
  · exact nextInv_refused _
  · exact nextInv_next (answer_inv (setRing_inv h (ringAppend_inv (h.ring_inv r) (hlen ▸ hn))) _)

theorem popRing_nextInv (h : s.Inv) : NextInv (popRing r n s) := nextInv_next (takeRing_inv h)

theorem popnRing_nextInv (h : s.Inv) : NextInv (popnRing r n s) := by
  rcases popnRing_cases (r := r) (n := n) (s := s) with ⟨-, e⟩ | ⟨-, e⟩ <;> rw [e]
  · exact nextInv_next (takeRing_inv h)
  · exact nextInv_next (raiseError_inv h _)

theorem clearRing_nextInv (h : s.Inv) : NextInv (clearRing r s) := by
  obtain ⟨⟨hcap, -⟩, -⟩ := h.cfg_wf
  exact nextInv_next (acknowledge_inv (setRing_inv h (ringCleared_inv hcap)))

/-! ### Link transfers -/

theorem linkAtReset_inv : Link.atReset.Inv c := by
  simp [Link.Inv, Link.atReset, Memory.wf, Store.wf]

/-- A start puts the direction at Active or at Idle, where LT-INV asks nothing of the flag; what was the tag before it
does not matter. -/
theorem startLink_inv (hrem : l.rem ≤ l.tl) (htl : l.tl ≤ c.bufSize) (hrc : l.rc ≤ c.retryCap)
    (hhb : Memory.wf l.hb ∧ Store.within c.bufSize l.hb) (ok : Bool) : (startLink ok l).Inv c := by
  rcases startLink_cases ok l with ⟨-, e⟩ | ⟨-, e⟩ <;> rw [e]
  · exact ⟨hrem, htl, hrc, nofun, nofun, hhb⟩
  · exact ⟨hrem, htl, hrc, nofun, nofun, hhb⟩

theorem startLink_rxFull (htl : l.tl = c.bufSize) (ok : Bool) : (startLink ok l).RxFull c := by
  intro _
  cases ok <;> exact htl

/-- `restart` after the fault flag is cleared (R179, R184, R188). -/
theorem restartLink_inv (h : l.Inv c) (ok : Bool) {k : Nat} (hk : k ≤ c.retryCap) :
    (restartLink ok { l with ff := false, rc := k }).Inv c := by
  obtain ⟨-, htl, -, -, -, hhb⟩ := h
  exact startLink_inv (l := { l with ff := false, rc := k, rem := l.tl }) le_rfl htl hk hhb ok

theorem restartLink_rxFull (htl : l.tl = c.bufSize) (ok : Bool) (k : Nat) :
    (restartLink ok { l with ff := false, rc := k }).RxFull c :=
  startLink_rxFull (l := { l with ff := false, rc := k, rem := l.tl }) htl ok

/-- A direction put back at Idle with its counter cleared (R178, R179, R183). -/
theorem idleLink_inv (h : l.Inv c) (ff : Bool) : { l with xs := .idle, ff := ff, rc := 0 }.Inv c := by
  obtain ⟨hrem, htl, -, -, -, hhb⟩ := h
  exact ⟨hrem, htl, Nat.zero_le _, nofun, nofun, hhb⟩

theorem idleLink_rxFull (ff : Bool) : { l with xs := .idle, ff := ff, rc := 0 }.RxFull c :=
  fun hx => absurd rfl hx

theorem tl_eq_bufSize_of_rx (h : s.Inv) (hx : (s.link d).xs ≠ .idle) : d = .rx → (s.link d).tl = s.cfg.bufSize := by
  rintro rfl
  exact h.rxFull hx

/-- LTX.START moves no more than RBT holds and no more than `hb` takes (R177). -/
theorem txCount_le : txCount s n ≤ s.rbt.cnt ∧ txCount s n ≤ s.cfg.bufSize := by
  simp only [txCount, ringTakeCount]
  omega

/-- LTX as LTX.START leaves it: `rem = tl`, and the bytes moved fit into `hb` (R177). -/
theorem txLoaded_started_inv (h : s.Inv) (hbuf : n ≤ s.cfg.bufSize) (ok : Bool) :
    (startLink ok (txLoaded s n)).Inv s.cfg := by
  obtain ⟨-, -, hrc, -, -, hwf, hin⟩ := h.link_inv .tx
  refine startLink_inv (l := txLoaded s n) le_rfl hbuf hrc ⟨Memory.writeRun_wf hwf _ _, Store.writeRun_within hin ?_⟩ ok
  simpa using hbuf

theorem startTx_nextInv (h : s.Inv) : NextInv (startTx n s) := by
  rcases startTx_cases (s := s) (len := n) with ⟨-, e⟩ | ⟨-, -, -, e⟩ | ⟨-, -, e⟩ <;> rw [e]
  · exact nextInv_next (raiseError_inv h _)
  · exact nextInv_next (raiseError_inv h _)
  · obtain ⟨hcnt, hbuf⟩ := txCount_le (s := s) (n := n)
    have hring := setRing_inv (r := .rbt) h (ringDrop_inv (h.ring_inv .rbt) hcnt)
    exact nextInv_next (respondStart_inv (setLink_tx_inv hring (txLoaded_started_inv h hbuf _)) ..)

theorem doneTx_nextInv (h : s.Inv) : NextInv (doneTx s) := by
  unfold doneTx
  split
  · have hl := idleLink_inv (h.link_inv .tx) s.ltx.ff
    exact nextInv_next (answer_inv (setLink_tx_inv h hl) _)
  · exact nextInv_next (answer_inv h _)

theorem faultLink_nextInv (h : s.Inv) : NextInv (faultLink d s) := by
  rcases faultLink_cases (s := s) (d := d) with ⟨-, e⟩ | ⟨hx, hrc, e⟩ | ⟨-, -, e⟩ <;> rw [e]
  · exact nextInv_next (answer_inv h _)
  · have hfull := tl_eq_bufSize_of_rx h (d := d) (by simp [hx])
    exact nextInv_next (respondStart_inv (setLink_inv h (restartLink_inv (h.link_inv d) _ hrc)
      fun hd => restartLink_rxFull (hfull hd) _ _) ..)
  · exact nextInv_next (raiseError_inv (setLink_inv h (idleLink_inv (h.link_inv d) _) fun _ => idleLink_rxFull _) _)

theorem startRx_nextInv (h : s.Inv) : NextInv (startRx s) := by
  rcases startRx_cases (s := s) with ⟨-, e⟩ | ⟨-, e⟩ <;> rw [e]
  · exact nextInv_next (raiseError_inv h _)
  · obtain ⟨-, -, hrc, -, -, hhb⟩ := h.link_inv .rx
    have hl := startLink_inv (c := s.cfg) (l := { s.lrx with tl := s.cfg.bufSize, rem := s.cfg.bufSize })
      le_rfl le_rfl hrc hhb s.port.startOk
    exact nextInv_next (respondStart_inv (setLink_inv h hl fun _ => startLink_rxFull rfl _) ..)

theorem readRx_nextInv (h : s.Inv) : NextInv (readRx s) := by
  rcases readRx_cases (s := s) with ⟨-, e⟩ | ⟨-, e⟩ | ⟨-, -, e⟩ | ⟨-, hfit, e⟩ <;> rw [e]
  · exact nextInv_next (raiseError_inv h _)
  · exact nextInv_next (answer_inv h _)
  · exact nextInv_next (raiseError_inv h _)
  · have hlen : (Memory.readRun s.lrx.hb 0 (rxCount s)).length ≤ s.cfg.ringCap - s.rbr.cnt := by
      simpa [ringAvail] using hfit
    have hring := setRing_inv (r := .rbr) h (ringAppend_inv (h.ring_inv .rbr) hlen)
    have hl := idleLink_inv (h.link_inv .rx) s.lrx.ff
    exact nextInv_next (answer_inv (setLink_inv hring hl fun _ => idleLink_rxFull _) _)

/-! ### Fault queue, encoder and annunciator -/

theorem enqueueCode_nextInv (h : s.Inv) (code : Half) : NextInv (enqueueCode code s) := by
  unfold enqueueCode
  split
  · exact nextInv_next (acknowledge_inv (setFq_inv h (by simpa)))
  · exact nextInv_next (raiseError_inv h _)

theorem fq_tail_length_le (h : s.Inv) {code : Half} {q : List Half} (hq : s.fq = code :: q) :
    q.length ≤ s.cfg.queueCap := by
  have := h.fq_length_le
  simp only [hq, List.length_cons] at this
  omega

theorem dequeueCode_nextInv (h : s.Inv) : NextInv (dequeueCode s) := by
  unfold dequeueCode
  split
  · exact nextInv_next (acknowledge_inv h)
  · next hq => exact nextInv_next (answer_inv (setFq_inv h (fq_tail_length_le h hq)) _)

theorem execEncEncode_nextInv (h : s.Inv) (v : Half) : NextInv (execEncEncode v s) := by
  unfold execEncEncode
  split
  · exact nextInv_next (respond_inv h ..)
  · exact nextInv_next (raiseError_inv h _)

@[simp] theorem rowSymbols_length (p : PatRow) : (rowSymbols p).length = 5 := rfl

/-- The length check of R263 stands before each digit, so what is emitted never exceeds SEQMAX. -/
theorem encodeFrom_length_le {v : Nat} {ds : List Nat} {out syms : List Symbol} {started : Bool}
    (hout : out.length ≤ c.seqMax) (he : encodeFrom c v ds out started = some syms) : syms.length ≤ c.seqMax := by
  induction ds generalizing out started with
  | nil =>
    cases he
    exact hout
  | cons w ds ih =>
    rw [encodeFrom] at he
    split_ifs at he with hskip hstarted hlong
    · exact ih hout he
    · refine ih ?_ he
      simp only [List.length_append, List.length_singleton, rowSymbols_length]
      omega
    · refine ih ?_ he
      simp only [List.length_append, List.length_nil, rowSymbols_length]
      omega

theorem encodeCode_length_le {v : Half} {syms : List Symbol} (he : encodeCode c v = some syms) :
    syms.length ≤ c.seqMax := encodeFrom_length_le (Nat.zero_le _) he

theorem annAtReset_inv : Annunciator.atReset.Inv c := by
  simp [Annunciator.Inv, Annunciator.atReset, Store.wf]

theorem discardSeq_inv (h : a.Inv c) : (discardSeq a).Inv c := by
  obtain ⟨-, -, -, -, -, -, hseq⟩ := h
  exact ⟨by simp [discardSeq], nofun, nofun, fun _ => ⟨rfl, rfl, rfl⟩, le_rfl, Nat.zero_le _, hseq⟩

theorem loadSeq_inv (h : a.Inv c) (hst : a.st = .idle) {syms : List Symbol} (hlen : syms.length ≤ c.seqMax) :
    (loadSeq a syms).Inv c := by
  obtain ⟨hled, -, -, -, -, -, hwf, hin⟩ := h
  refine ⟨hled, fun hx => absurd hst hx, fun hx => absurd (hst.symm.trans hx) nofun, nofun, Nat.zero_le _, hlen,
    Store.writeRun_wf hwf _, Store.writeRun_within hin (by simpa using hlen)⟩

/-- Branch START: Signal is entered on a dot or a dash only (R284). -/
theorem startSymbol_inv (h : a.Inv c) (hst : a.st = .idle) (hload : a.loaded = true) (hidx : a.idx < a.slen)
    (now : Nat) : (startSymbol now a (Store.read Symbol.dot a.seq a.idx)).Inv c := by
  have hd := discardSeq_inv h
  obtain ⟨hled, -, -, -, hrest⟩ := h
  have hloaded : a.loaded ≠ false := by simp [hload]
  cases hx : Store.read Symbol.dot a.seq a.idx
  case dot =>
    exact ⟨by simp [startSymbol], fun _ => ⟨hload, hidx⟩, fun _ => .inl hx, fun h0 => absurd h0 hloaded, hrest⟩
  case dash =>
    exact ⟨by simp [startSymbol], fun _ => ⟨hload, hidx⟩, fun _ => .inr hx, fun h0 => absurd h0 hloaded, hrest⟩
  case gap =>
    have hoff : ¬ a.led = true := by simp [hled, hst]
    exact ⟨by simp [startSymbol, hoff], fun _ => ⟨hload, hidx⟩, nofun, fun h0 => absurd h0 hloaded, hrest⟩
  case invalid => exact hd

/-- Branch SIGNAL: the LED goes off as Pause is entered (R285). -/
theorem signalSymbol_inv (h : a.Inv c) (hst : a.st = .signal) (now : Nat) (sym : Symbol) :
    (signalSymbol c now a sym).Inv c := by
  have hd := discardSeq_inv h
  unfold signalSymbol
  split
  · exact hd
  · split
    · obtain ⟨-, hplay, -, -, hrest⟩ := h
      obtain ⟨hload, hidx⟩ := hplay (by simp [hst])
      exact ⟨by simp, fun _ => ⟨hload, hidx⟩, nofun, by simp [hload], hrest⟩
    · exact h

/-- Branch PAUSE: the index goes up from below `slen`, so it stays within it (R286). -/
theorem pauseSymbol_inv (h : a.Inv c) (hst : a.st = .pause) (now : Nat) (sym : Symbol) :
    (pauseSymbol c now a sym).Inv c := by
  have hd := discardSeq_inv h
  unfold pauseSymbol
  split
  · exact hd
  · split
    · obtain ⟨hled, hplay, -, -, -, hrest⟩ := h
      obtain ⟨hload, hidx⟩ := hplay (by simp [hst])
      exact ⟨by simp_all, by simp, nofun, by simp [hload], hidx, hrest⟩
    · exact h

theorem respondTick_nextInv (h : s.Inv) : NextInv (respondTick s) := nextInv_next (answer_inv h _)

theorem tickLoad_nextInv (h : s.Inv) (hst : s.ann.st = .idle) : NextInv (tickLoad s) := by
  rcases tickLoad_cases (s := s) with ⟨-, e⟩ | ⟨_, q, hq, -, e⟩ | ⟨_, q, syms, hq, henc, e⟩ <;> rw [e]
  · exact respondTick_nextInv h
  · exact nextInv_next (raiseError_inv (setFq_inv h (fq_tail_length_le h hq)) _)
  · exact respondTick_nextInv (setAnn_inv (setFq_inv h (fq_tail_length_le h hq))
      (loadSeq_inv h.ann_inv hst (encodeCode_length_le henc)))

theorem tickSymbol_nextInv (h : s.Inv) {f : Annunciator → Symbol → Annunciator}
    (hf : (f s.ann (Store.read Symbol.dot s.ann.seq s.ann.idx)).Inv s.cfg) : NextInv (tickSymbol f s) := by
  rcases tickSymbol_cases (s := s) f with ⟨-, e⟩ | ⟨-, e⟩ <;> rw [e]
  · exact respondTick_nextInv (setAnn_inv h hf)
  · exact nextInv_fault _

theorem execAnnTick_nextInv (h : s.Inv) : NextInv (execAnnTick s) := by
  unfold execAnnTick tickBranch
  split
  · exact nextInv_refused _
  split
  next hst =>
    split
    · exact tickLoad_nextInv h hst
    next hload =>
      split
      · exact respondTick_nextInv (setAnn_inv h (discardSeq_inv h.ann_inv))
      next hidx =>
        exact tickSymbol_nextInv h (startSymbol_inv h.ann_inv hst (by simpa using hload) (by omega) _)
  next hst => exact tickSymbol_nextInv h (signalSymbol_inv h.ann_inv hst ..)
  next hst => exact tickSymbol_nextInv h (pauseSymbol_inv h.ann_inv hst ..)

/-! ### Every command -/

theorem exec_nextInv (i : Instr) (h : s.Inv) : NextInv (exec i s) := by
  cases i with
  | rbtPush | rbrPush => exact pushRing_nextInv h
  | rbtPop | rbrPop => exact popRing_nextInv h
  | rbtPopn | rbrPopn => exact popnRing_nextInv h
  | rbtClear | rbrClear => exact clearRing_nextInv h
  | rbtLen | rbtIsempty | rbtAvail | rbtCap | rbtIsfull => exact nextInv_next (answer_inv h _)
  | rbrLen | rbrIsempty | rbrAvail | rbrCap | rbrIsfull => exact nextInv_next (answer_inv h _)
  | ltxStart => exact startTx_nextInv h
  | ltxDone => exact doneTx_nextInv h
  | ltxFault | lrxFault => exact faultLink_nextInv h
  | ltxStatus | ltxRetries | lrxStatus | lrxRetries | lrxIdle => exact nextInv_next (answer_inv h _)
  | lrxStart => exact startRx_nextInv h
  | lrxRead => exact readRx_nextInv h
  | fqEnq code => exact enqueueCode_nextInv h code
  | fqDeq => exact dequeueCode_nextInv h
  | encEncode v => exact execEncEncode_nextInv h v
  | annTick => exact execAnnTick_nextInv h

theorem runTransaction_nextInv (h : s.Inv) (x : Transaction) : NextInv (runTransaction x s) := by
  unfold runTransaction
  split
  · exact exec_nextInv _ (setPort_inv h _)
  · exact nextInv_next (raiseError_inv (setPort_inv h _) _)

/-! ### Engine moves, reset and pseudo-operations -/

theorem moveRxByte_nextInv (h : s.Inv) (b : Byte) : NextInv (moveRxByte b s) := by
  intro t ht
  obtain ⟨hx, -, hin, rfl⟩ := moveRxByte_next ht
  obtain ⟨hrem, htl, hrc, -, -, hwf, hhb⟩ := h.link_inv .rx
  refine setLink_inv h ⟨?_, htl, hrc, ?_, ?_, Memory.write_wf hwf _ _, Store.write_within hhb hin⟩ ?_
  · exact (Nat.sub_le ..).trans hrem
  · simp [rxStored, hx]
  · simp [rxStored, hx]
  · exact fun _ _ => h.rxFull (by simp [hx])

theorem moveTxByte_nextInv (h : s.Inv) : NextInv (moveTxByte s) := by
  intro t ht
  obtain ⟨hx, -, rfl⟩ := moveTxByte_next ht
  obtain ⟨hrem, htl, hrc, -, -, hhb⟩ := h.link_inv .tx
  have hl : { s.ltx with rem := s.ltx.rem - 1 }.Inv s.cfg :=
    ⟨(Nat.sub_le ..).trans hrem, htl, hrc, by simp [hx], by simp [hx], hhb⟩
  exact setOut_inv (setLink_tx_inv h hl) _

theorem moveComplete_nextInv (h : s.Inv) : NextInv (moveComplete d s) := by
  intro t ht
  obtain ⟨hx, hzero, rfl⟩ := moveComplete_next ht
  obtain ⟨hrem, htl, hrc, -, -, hhb⟩ := h.link_inv d
  exact setLink_inv h ⟨hrem, htl, hrc, nofun, fun _ => hzero, hhb⟩
    fun hd _ => tl_eq_bufSize_of_rx h (by simp [hx]) hd

theorem moveFault_nextInv (h : s.Inv) : NextInv (moveFault d s) := by
  intro t ht
  obtain ⟨hx, rfl⟩ := moveFault_next ht
  obtain ⟨hrem, htl, hrc, -, -, hhb⟩ := h.link_inv d
  exact setLink_inv h ⟨hrem, htl, hrc, fun _ => rfl, nofun, hhb⟩
    fun hd _ => tl_eq_bufSize_of_rx h (by simp [hx]) hd

theorem blockReset_inv (h : s.Inv) : (blockReset s).Inv := by
  obtain ⟨hcap, -⟩ := h.cfg_wf.1
  have hring : RingBuf.atReset.Inv s.cfg := ringCleared_inv hcap
  exact ⟨h.cfg_wf, hring, hring, linkAtReset_inv, linkAtReset_inv, fun hx => absurd rfl hx, Nat.zero_le _,
    annAtReset_inv, h.held_le⟩

theorem issue_nextInv (h : s.Inv) (i : Instr) (din : List Byte) : NextInv (issue i din s) :=
  exec_nextInv i (setPort_inv h _)

theorem returnBridge_inv (h : s.Inv) (b : BridgeResult) : (returnBridge s b).Inv := setOut_inv h _

theorem issuePush_nextInv (h : s.Inv) (i : Instr) (data : List Byte) : NextInv (issuePush i data n s) := by
  intro t ht
  obtain ⟨t1, h1, rfl | ⟨b, rfl⟩⟩ := issuePush_next ht
  · exact issue_nextInv h _ _ _ h1
  · exact returnBridge_inv (issue_nextInv h _ _ _ h1) b

theorem hostIn_nextInv (h : s.Inv) (enumerated : Bool) (inbound : Option (List Byte)) :
    NextInv (hostIn enumerated inbound s) := by
  unfold hostIn
  split
  · exact nextInv_next (returnBridge_inv h _)
  split
  · exact nextInv_next (returnBridge_inv h _)
  split
  · exact issuePush_nextInv h _ _
  · exact nextInv_refused _

/-- A POP answers at most as many bytes as it was asked for (R141), and leaves the configuration. -/
theorem popRing_dout_length_le {rsp : Response} (ht : popRing r n s = .next t) (hr : t.out.resp = some rsp) :
    rsp.dout.length ≤ n ∧ t.cfg = s.cfg := by
  cases ht
  cases hr
  exact ⟨by simp [ringTakeCount], setRing_cfg ..⟩

theorem argNat_natValue_le (k : Nat) : argNat (natValue k) ≤ k := by
  simp only [argNat, natValue, BitVec.toNat_ofNat]
  exact Nat.mod_le ..

/-- What HB.OUT pops fits into its staging area of PKT bytes (R223). -/
theorem hostOutPop_nextInv (h : s.Inv) : NextInv (hostOutPop s) := by
  intro t ht
  obtain ⟨-, t1, h1, ⟨-, rfl⟩ | ⟨rsp, hr, ⟨-, rfl⟩ | ⟨-, rfl⟩⟩⟩ := hostOutPop_next ht
  all_goals have ht1 := issue_nextInv h _ _ _ h1
  · exact ht1
  · exact returnBridge_inv ht1 _
  · obtain ⟨hlen, hcfg⟩ := popRing_dout_length_le (r := .rbr) h1 hr
    exact setStaging_inv ht1 (hcfg ▸ hlen.trans (argNat_natValue_le _))

theorem hostOutWrite_nextInv (h : s.Inv) (k : Nat) : NextInv (hostOutWrite k s) := by
  intro t ht
  obtain ⟨data, hs, hk, rfl⟩ := hostOutWrite_next ht
  have hheld := h.held_le
  rw [hs, held_staged] at hheld
  refine setStaging_inv (setOut_inv h _) ?_
  split
  · simp only [held_taken, List.length_drop]
    omega
  · exact Nat.zero_le _

theorem hostOutRequeue_nextInv (h : s.Inv) : NextInv (hostOutRequeue s) := by
  intro t ht
  obtain ⟨k, rest, -, hpush⟩ := hostOutRequeue_next ht
  exact issuePush_nextInv (setStaging_inv h (Nat.zero_le _)) _ _ _ hpush

/-! ### Every event -/

theorem runEvent_nextInv (e : Event) (h : s.Inv) : NextInv (runEvent e s) := by
  cases e with
  | command x => exact runTransaction_nextInv h x
  | engRxByte b => exact moveRxByte_nextInv h b
  | engTxByte => exact moveTxByte_nextInv h
  | engComplete d => exact moveComplete_nextInv h
  | engFault d => exact moveFault_nextInv h
  | blockReset => exact nextInv_next (blockReset_inv h)
  | hbIn enumerated inbound => exact hostIn_nextInv h enumerated inbound
  | hbOut => exact hostOutPop_nextInv h
  | hbOutWrite k => exact hostOutWrite_nextInv h k
  | hbOutRequeue => exact hostOutRequeue_nextInv h
  | dispatch f => exact issue_nextInv h (.fqEnq _) []

theorem step_nextInv (h : s.Inv) : NextInv (step s) := by
  unfold step
  split
  · exact nextInv_next h
  · exact runEvent_nextInv _ (begin_inv h _)

end Sys2Proof.Machine

namespace Sys2Proof.Claims

open Sys2Proof.Machine

/-- Settles O42: a step waits or runs one event, and each event keeps the invariant. -/
theorem everyStepKeepsTheInvariants : Obligations.EveryStepKeepsTheInvariants := by
  unfold Obligations.EveryStepKeepsTheInvariants
  exact fun _ t h ht => step_nextInv h t ht

end Sys2Proof.Claims

/-! The reset values (10_state.md R60) and the output lines (R54), each line as the tag it stands for. -/

namespace Sys2Proof.Machine

variable {s : State}

@[simp] theorem ledOut_eq : ledOut s = s.ann.led := rfl

@[simp] theorem evTxComplete_iff : evTxComplete s = true ↔ s.ltx.xs = .complete := beq_iff_eq

@[simp] theorem evTxError_iff : evTxError s = true ↔ s.ltx.xs = .error := beq_iff_eq

@[simp] theorem evRxComplete_iff : evRxComplete s = true ↔ s.lrx.xs = .complete := beq_iff_eq

@[simp] theorem evRxError_iff : evRxError s = true ↔ s.lrx.xs = .error := beq_iff_eq

@[simp] theorem reset_ring (r : Ring) : State.reset.ring r = .atReset := by cases r <;> rfl

@[simp] theorem reset_link (d : Dir) : State.reset.link d = .atReset := by cases d <;> rfl

end Sys2Proof.Machine

namespace Sys2Proof.Claims

open Sys2Proof.Machine

/-- Settles O39: both rings and both directions are at their reset values, whose fields are those of R60. -/
theorem resetLeavesEveryElementClear : Obligations.ResetLeavesEveryElementClear := by
  unfold Obligations.ResetLeavesEveryElementClear
  refine ⟨fun r => ?rings, fun d => ?links, rfl, rfl, rfl, fun _ => rfl, rfl, rfl, rfl, rfl, rfl, rfl, rfl, rfl, rfl⟩
  case rings =>
    rw [reset_ring]
    exact ⟨rfl, rfl, rfl, fun _ => rfl⟩
  case links =>
    rw [reset_link]
    exact ⟨rfl, rfl, rfl, rfl, rfl, fun _ => rfl⟩

/-- Settles O54, line by line. -/
theorem outputLinesFollowTheState : Obligations.OutputLinesFollowTheState := by
  unfold Obligations.OutputLinesFollowTheState
  exact fun _ => ⟨ledOut_eq, evTxComplete_iff, evTxError_iff, evRxComplete_iff, evRxError_iff⟩

end Sys2Proof.Claims

/-! The content of a ring (10_state.md R26) after each ring operation, and two states that differ at most in rings of
equal content: every command answers alike on them and leaves them so (R28, R129). -/

namespace Sys2Proof.Machine

variable {c : Config} {rb rb' : RingBuf} {data : List Byte} {s s' : State} {r : Ring} {d : Dir} {n : Nat}

/-! ### The content after a PUSH, a POP and a CLEAR -/

@[simp] theorem ringContent_length : (ringContent c rb).length = rb.cnt := by simp [ringContent]

theorem ringContent_getElem? (i : Nat) :
    (ringContent c rb)[i]? = if i < rb.cnt then some (Memory.read rb.mem ((rb.rp + i) % c.ringCap)) else none := by
  unfold ringContent
  by_cases hi : i < rb.cnt <;> simp [hi]

/-- The cell of the `j`-th byte of a PUSH: `(wp + j) mod C` (R149). -/
theorem ringAppend_read_new (hm : Memory.wf rb.mem) (hw : rb.wp < c.ringCap) (hn : data.length ≤ c.ringCap) {j : Nat}
    (hj : j < data.length) :
    some (Memory.read (ringAppend c rb data).mem ((rb.wp + j) % c.ringCap)) = data[j]? := by
  rw [ringAppend_read hm hw hn, cursor_add hw (by omega)]
  by_cases hrun : rb.wp + j < c.ringCap
  · rw [if_pos hrun, if_pos (by omega), Nat.add_sub_cancel_left]
    simp [hj]
  · rw [if_neg hrun, if_neg (by omega), if_pos (by omega), show rb.wp + j - c.ringCap + c.ringCap - rb.wp = j by omega]
    simp [hj]

/-- A cell that no byte of a PUSH goes to. -/
theorem ringAppend_read_old (hm : Memory.wf rb.mem) (hw : rb.wp < c.ringCap) (hn : data.length ≤ c.ringCap) {b : Nat}
    (hb : ∀ j, j < data.length → b ≠ (rb.wp + j) % c.ringCap) :
    Memory.read (ringAppend c rb data).mem b = Memory.read rb.mem b := by
  rw [ringAppend_read hm hw hn, if_neg, if_neg]
  · intro hrun2
    refine hb (b + c.ringCap - rb.wp) (by omega) ?_
    rw [show rb.wp + (b + c.ringCap - rb.wp) = b + c.ringCap by omega, Nat.add_mod_right,
      Nat.mod_eq_of_lt (by omega)]
  · rintro ⟨hlow, hhigh, hcap⟩
    refine hb (b - rb.wp) (by omega) ?_
    rw [Nat.add_sub_cancel' hlow, Nat.mod_eq_of_lt hcap]

/-- The cells of the content and those a PUSH writes are different: together they are no more than C. -/
theorem content_cell_ne_new_cell (h : rb.Inv c) {i j : Nat} (hi : i < rb.cnt) (hj : rb.cnt + j < c.ringCap) :
    (rb.rp + i) % c.ringCap ≠ (rb.wp + j) % c.ringCap := by
  obtain ⟨hwp, -, hr, -⟩ := h
  rw [hwp, Nat.mod_add_mod, Nat.add_assoc, cursor_add hr (by omega), cursor_add hr (by omega)]
  split <;> split <;> omega

/-- A PUSH puts its data behind the content. -/
theorem ringContent_ringAppend (h : rb.Inv c) (hn : data.length ≤ c.ringCap - rb.cnt) :
    ringContent c (ringAppend c rb data) = ringContent c rb ++ data := by
  have ⟨hwp, hw, _, hcnt, hm, _⟩ := h
  apply List.ext_getElem?
  intro i
  rw [ringContent_getElem?, List.getElem?_append, ringContent_length, ringContent_getElem?, ringAppend_rp]
  by_cases hold : i < rb.cnt
  · rw [if_pos hold, if_pos hold, if_pos (by rw [ringAppend_cnt]; omega),
      ringAppend_read_old hm hw (by omega) fun j hj => content_cell_ne_new_cell h hold (by omega)]
  · rw [if_neg hold]
    by_cases hnew : i - rb.cnt < data.length
    · have hcell : (rb.rp + i) % c.ringCap = (rb.wp + (i - rb.cnt)) % c.ringCap := by
        rw [hwp, Nat.mod_add_mod, Nat.add_assoc, Nat.add_sub_cancel' (by omega)]
      rw [if_pos (by rw [ringAppend_cnt]; omega), hcell, ringAppend_read_new hm hw (by omega) hnew]
    · rw [if_neg (by rw [ringAppend_cnt]; omega), List.getElem?_eq_none (by omega)]

theorem ringContent_ringDrop (k : Nat) : ringContent c (ringDrop c rb k) = (ringContent c rb).drop k := by
  apply List.ext_getElem?
  intro i
  rw [List.getElem?_drop, ringContent_getElem?, ringContent_getElem?]
  simp only [ringDrop_cnt, ringDrop_rp, ringDrop_mem, Nat.mod_add_mod, Nat.add_assoc]
  congr 1
  simp only [eq_iff_iff]
  omega

/-- A POP returns the front of the content. -/
theorem ringFront_eq_take (h : rb.Inv c) {k : Nat} (hk : k ≤ rb.cnt) : ringFront c rb k = (ringContent c rb).take k := by
  obtain ⟨-, -, hr, hcnt, -⟩ := h
  rw [ringFront_eq_map hr (hk.trans hcnt), ringContent, ← List.map_take, List.take_range, Nat.min_eq_left hk]

/-! ### Two rings of equal content -/

/-- Two rings that meet RB-INV and hold the same bytes, at whatever cursors. -/
structure RingBuf.Alike (c : Config) (rb rb' : RingBuf) : Prop where
  inv : rb.Inv c
  inv' : rb'.Inv c
  content : ringContent c rb' = ringContent c rb

namespace RingBuf.Alike

theorem refl (h : rb.Inv c) : Alike c rb rb := ⟨h, h, rfl⟩

theorem cnt_eq (h : Alike c rb rb') : rb'.cnt = rb.cnt := by
  rw [← ringContent_length (c := c), h.content, ringContent_length]

theorem front_eq (h : Alike c rb rb') {k : Nat} (hk : k ≤ rb.cnt) : ringFront c rb' k = ringFront c rb k := by
  rw [ringFront_eq_take h.inv hk, ringFront_eq_take h.inv' (h.cnt_eq ▸ hk), h.content]

theorem append (h : Alike c rb rb') (hn : data.length ≤ c.ringCap - rb.cnt) :
    Alike c (ringAppend c rb data) (ringAppend c rb' data) := by
  have hn' : data.length ≤ c.ringCap - rb'.cnt := h.cnt_eq ▸ hn
  refine ⟨ringAppend_inv h.inv hn, ringAppend_inv h.inv' hn', ?_⟩
  rw [ringContent_ringAppend h.inv hn, ringContent_ringAppend h.inv' hn', h.content]

theorem drop (h : Alike c rb rb') {k : Nat} (hk : k ≤ rb.cnt) : Alike c (ringDrop c rb k) (ringDrop c rb' k) := by
  refine ⟨ringDrop_inv h.inv hk, ringDrop_inv h.inv' (h.cnt_eq ▸ hk), ?_⟩
  rw [ringContent_ringDrop, ringContent_ringDrop, h.content]

end RingBuf.Alike

/-! ### Two states that differ at most in rings of equal content -/

/-- `s'` is `s` but for its rings, which hold the same bytes under the configuration `c`. -/
structure State.Alike (c : Config) (s s' : State) : Prop where
  ring_alike : ∀ r, (s.ring r).Alike c (s'.ring r)
  rest : s' = { s with rbt := s'.rbt, rbr := s'.rbr }

namespace State.Alike

theorem ltx_eq (h : Alike c s s') : s'.ltx = s.ltx := by rw [h.rest]
theorem lrx_eq (h : Alike c s s') : s'.lrx = s.lrx := by rw [h.rest]
theorem fq_eq (h : Alike c s s') : s'.fq = s.fq := by rw [h.rest]
theorem ann_eq (h : Alike c s s') : s'.ann = s.ann := by rw [h.rest]
theorem cfg_eq (h : Alike c s s') : s'.cfg = s.cfg := by rw [h.rest]
theorem port_eq (h : Alike c s s') : s'.port = s.port := by rw [h.rest]
theorem link_eq (h : Alike c s s') (d : Dir) : s'.link d = s.link d := by
  cases d
  · exact h.ltx_eq
  · exact h.lrx_eq
/-- The second state written out, for the commands whose update of the state names every field. -/
theorem exists_rings (h : Alike c s s') : ∃ a b, s' = { s with rbt := a, rbr := b } := ⟨_, _, h.rest⟩

theorem cnt_eq (h : Alike c s s') (r : Ring) : (s'.ring r).cnt = (s.ring r).cnt := (h.ring_alike r).cnt_eq

theorem respond_alike (h : Alike c s s') (st : Status) (v : Bool) (val : Half) (p : List Byte) :
    Alike c (respond s st v val p) (respond s' st v val p) :=
  ⟨by simpa using h.ring_alike, congrArg (respond · st v val p) h.rest⟩

theorem answer_alike (h : Alike c s s') (val : Half) : Alike c (answer s val) (answer s' val) := h.respond_alike ..

theorem acknowledge_alike (h : Alike c s s') : Alike c (acknowledge s) (acknowledge s') := h.respond_alike ..

theorem raiseError_alike (h : Alike c s s') (e : Status) : Alike c (raiseError s e) (raiseError s' e) :=
  h.respond_alike ..

theorem respondStart_alike (h : Alike c s s') (v : Bool) (val : Half) :
    Alike c (respondStart s d v val) (respondStart s' d v val) := by
  unfold respondStart
  rw [h.port_eq]
  split
  · exact h.respond_alike ..
  · exact h.raiseError_alike _

theorem setRing_alike (h : Alike c s s') (hr : rb.Alike c rb') : Alike c (s.setRing r rb) (s'.setRing r rb') := by
  refine ⟨fun q => ?_, ?_⟩
  · by_cases hq : q = r
    · subst hq
      simpa using hr
    · rw [setRing_ring_other _ _ hq, setRing_ring_other _ _ hq]
      exact h.ring_alike q
  · cases r
    · exact congrArg (State.setRing · .rbt rb') h.rest
    · exact congrArg (State.setRing · .rbr rb') h.rest

theorem setLink_alike (h : Alike c s s') (d : Dir) (l : Link) : Alike c (s.setLink d l) (s'.setLink d l) := by
  refine ⟨by simpa using h.ring_alike, ?_⟩
  cases d
  · exact congrArg (State.setLink · .tx l) h.rest
  · exact congrArg (State.setLink · .rx l) h.rest

theorem setFq_alike (h : Alike c s s') (q : List Half) : Alike c { s with fq := q } { s' with fq := q } :=
  ⟨h.ring_alike, congrArg (fun u => { u with fq := q }) h.rest⟩

theorem setAnn_alike (h : Alike c s s') (a : Annunciator) : Alike c { s with ann := a } { s' with ann := a } :=
  ⟨h.ring_alike, congrArg (fun u => { u with ann := a }) h.rest⟩

end State.Alike

/-- Where the first outcome is a next state, so is the second, and the two are alike. -/
def NextAlike (c : Config) (x x' : Result) : Prop := ∀ t, x = .next t → ∃ t', x' = .next t' ∧ t.Alike c t'

theorem nextAlike_next (h : s.Alike c s') : NextAlike c (.next s) (.next s') := by
  rintro t ⟨⟩
  exact ⟨s', rfl, h⟩

theorem nextAlike_fault (f : Fault) (x : Result) : NextAlike c (.fault f) x := fun _ ht => nomatch ht

theorem nextAlike_refused (f : Refusal) (x : Result) : NextAlike c (.refused f) x := fun _ ht => nomatch ht

/-! ### The ring commands -/

theorem takeRing_alike (h : s.Alike s.cfg s') : (takeRing r n s).Alike s.cfg (takeRing r n s') := by
  have hr := h.ring_alike r
  have hk : ringTakeCount (s.ring r) n ≤ (s.ring r).cnt := Nat.min_le_right ..
  have hcount : ringTakeCount (s'.ring r) n = ringTakeCount (s.ring r) n := by rw [ringTakeCount, hr.cnt_eq]; rfl
  unfold takeRing
  simp only [h.cfg_eq, hcount, hr.front_eq hk]
  exact (h.setRing_alike (hr.drop hk)).respond_alike ..

theorem pushRing_nextAlike (h : s.Alike s.cfg s') : NextAlike s.cfg (pushRing r n s) (pushRing r n s') := by
  have hr := h.ring_alike r
  unfold pushRing payloadOf ringAvail
  rw [h.cfg_eq, h.port_eq, hr.cnt_eq]
  by_cases hfull : s.cfg.ringCap - (s.ring r).cnt < n
  · rw [if_pos hfull, if_pos hfull]
    exact nextAlike_next (h.raiseError_alike _)
  · rw [if_neg hfull, if_neg hfull]
    by_cases hlen : s.port.din.length = n
    · rw [if_pos hlen]
      exact nextAlike_next ((h.setRing_alike (hr.append (by omega))).answer_alike _)
    · rw [if_neg hlen]
      exact nextAlike_refused _ _

theorem popnRing_nextAlike (h : s.Alike s.cfg s') : NextAlike s.cfg (popnRing r n s) (popnRing r n s') := by
  unfold popnRing
  rw [h.cfg_eq]
  split
  · exact nextAlike_next (takeRing_alike h)
  · exact nextAlike_next (h.raiseError_alike _)

theorem clearRing_nextAlike (h : s.Alike s.cfg s') : NextAlike s.cfg (clearRing r s) (clearRing r s') := by
  obtain ⟨-, -, hrp, -⟩ := (h.ring_alike r).inv
  exact nextAlike_next (h.setRing_alike (.refl (ringCleared_inv (by omega)))).acknowledge_alike

/-- A command that changes no unit and answers with what both states agree on. -/
theorem answer_nextAlike (h : s.Alike c s') {val val' : Half} (hval : val' = val) :
    NextAlike c (.next (answer s val)) (.next (answer s' val')) := by
  rw [hval]
  exact nextAlike_next (h.answer_alike val)

/-! ### The commands of the other units -/

/-- LTX.START takes the front of RBT's content (R177). -/
theorem startTx_nextAlike (h : s.Alike s.cfg s') : NextAlike s.cfg (startTx n s) (startTx n s') := by
  have hr : s.rbt.Alike s.cfg s'.rbt := h.ring_alike .rbt
  have hk := (txCount_le (s := s) (n := n)).1
  have hcount : txCount s' n = txCount s n := by simp only [txCount, ringTakeCount, h.cfg_eq, hr.cnt_eq]
  have hload : txLoaded s' (txCount s n) = txLoaded s (txCount s n) := by
    simp only [txLoaded, h.ltx_eq, h.cfg_eq, hr.front_eq hk]
  unfold startTx
  simp only [h.ltx_eq, h.cfg_eq, h.port_eq, hr.cnt_eq, hcount, hload]
  split
  · exact nextAlike_next (h.raiseError_alike _)
  split
  · exact nextAlike_next (h.raiseError_alike _)
  · exact nextAlike_next (((h.setRing_alike (hr.drop hk)).setLink_alike ..).respondStart_alike ..)

theorem doneTx_nextAlike (h : s.Alike c s') : NextAlike c (doneTx s) (doneTx s') := by
  unfold doneTx
  rw [h.ltx_eq]
  split
  · exact nextAlike_next ((h.setLink_alike ..).answer_alike _)
  · exact nextAlike_next (h.answer_alike _)

theorem faultLink_nextAlike (h : s.Alike c s') : NextAlike c (faultLink d s) (faultLink d s') := by
  unfold faultLink
  simp only [h.link_eq, h.cfg_eq, h.port_eq]
  split
  · exact nextAlike_next (h.answer_alike _)
  split
  · exact nextAlike_next ((h.setLink_alike ..).respondStart_alike ..)
  · exact nextAlike_next ((h.setLink_alike ..).raiseError_alike _)

theorem startRx_nextAlike (h : s.Alike c s') : NextAlike c (startRx s) (startRx s') := by
  unfold startRx
  simp only [h.lrx_eq, h.cfg_eq, h.port_eq]
  split
  · exact nextAlike_next (h.raiseError_alike _)
  · exact nextAlike_next ((h.setLink_alike ..).respondStart_alike ..)

/-- LRX.READ appends the received bytes behind RBR's content, or finds no room for them in either state (R183). -/
theorem harvestRx_nextAlike (h : s.Alike s.cfg s') : NextAlike s.cfg (harvestRx s) (harvestRx s') := by
  have hr : s.rbr.Alike s.cfg s'.rbr := h.ring_alike .rbr
  have hcount : rxCount s' = rxCount s := by simp only [rxCount, h.cfg_eq, h.lrx_eq]
  unfold harvestRx ringAvail
  simp only [h.lrx_eq, h.cfg_eq, hcount, hr.cnt_eq]
  split
  · exact nextAlike_next (h.raiseError_alike _)
  · have hfit : (Memory.readRun s.lrx.hb 0 (rxCount s)).length ≤ s.cfg.ringCap - s.rbr.cnt := by
      rw [Memory.readRun_length]
      omega
    exact nextAlike_next (((h.setRing_alike (hr.append hfit)).setLink_alike ..).answer_alike _)

theorem readRx_nextAlike (h : s.Alike s.cfg s') : NextAlike s.cfg (readRx s) (readRx s') := by
  unfold readRx
  rw [h.lrx_eq]
  split
  · exact nextAlike_next (h.raiseError_alike _)
  · exact nextAlike_next (h.answer_alike _)
  · exact harvestRx_nextAlike h
  · exact harvestRx_nextAlike h

theorem enqueueCode_nextAlike (h : s.Alike c s') (code : Half) :
    NextAlike c (enqueueCode code s) (enqueueCode code s') := by
  obtain ⟨_, _, rfl⟩ := h.exists_rings
  unfold enqueueCode
  dsimp only
  split
  · exact nextAlike_next (h.setFq_alike _).acknowledge_alike
  · exact nextAlike_next (h.raiseError_alike _)

theorem dequeueCode_nextAlike (h : s.Alike c s') : NextAlike c (dequeueCode s) (dequeueCode s') := by
  unfold dequeueCode
  rw [h.fq_eq]
  split
  · exact nextAlike_next h.acknowledge_alike
  · exact nextAlike_next ((h.setFq_alike _).answer_alike _)

theorem execEncEncode_nextAlike (h : s.Alike c s') (v : Half) :
    NextAlike c (execEncEncode v s) (execEncEncode v s') := by
  unfold execEncEncode
  rw [h.cfg_eq]
  split
  · exact nextAlike_next (h.respond_alike ..)
  · exact nextAlike_next (h.raiseError_alike _)

theorem respondTick_nextAlike (h : s.Alike c s') : NextAlike c (respondTick s) (respondTick s') :=
  answer_nextAlike h (by rw [h.ann_eq])

theorem tickLoad_nextAlike (h : s.Alike c s') : NextAlike c (tickLoad s) (tickLoad s') := by
  obtain ⟨_, _, rfl⟩ := h.exists_rings
  unfold tickLoad
  dsimp only
  split
  · exact respondTick_nextAlike h
  next code q _ =>
    split
    next syms _ => exact respondTick_nextAlike ((h.setFq_alike q).setAnn_alike (loadSeq s.ann syms))
    · exact nextAlike_next ((h.setFq_alike q).raiseError_alike _)

theorem tickEnd_nextAlike (h : s.Alike c s') : NextAlike c (tickEnd s) (tickEnd s') := by
  obtain ⟨_, _, rfl⟩ := h.exists_rings
  unfold tickEnd
  dsimp only
  exact respondTick_nextAlike (h.setAnn_alike _)

theorem tickSymbol_nextAlike (h : s.Alike c s') (f : Annunciator → Symbol → Annunciator) :
    NextAlike c (tickSymbol f s) (tickSymbol f s') := by
  obtain ⟨_, _, rfl⟩ := h.exists_rings
  unfold tickSymbol
  dsimp only
  split
  · exact respondTick_nextAlike (h.setAnn_alike _)
  · exact nextAlike_fault _ _

theorem execAnnTick_nextAlike (h : s.Alike c s') : NextAlike c (execAnnTick s) (execAnnTick s') := by
  unfold execAnnTick tickBranch
  rw [h.ann_eq, h.cfg_eq, h.port_eq]
  split
  · exact nextAlike_refused _ _
  split
  · split
    · exact tickLoad_nextAlike h
    split
    · exact tickEnd_nextAlike h
    · exact tickSymbol_nextAlike h _
  · exact tickSymbol_nextAlike h _
  · exact tickSymbol_nextAlike h _

/-! ### Every command -/

theorem exec_nextAlike (i : Instr) (h : s.Alike s.cfg s') : NextAlike s.cfg (exec i s) (exec i s') := by
  cases i with
  | rbtPush | rbrPush => exact pushRing_nextAlike h
  | rbtPop | rbrPop => exact nextAlike_next (takeRing_alike h)
  | rbtPopn | rbrPopn => exact popnRing_nextAlike h
  | rbtClear | rbrClear => exact clearRing_nextAlike h
  | rbtLen => exact answer_nextAlike h (by rw [h.cnt_eq])
  | rbrLen => exact answer_nextAlike h (by rw [h.cnt_eq])
  | rbtIsempty => exact answer_nextAlike h (by rw [ringEmpty, h.cnt_eq]; rfl)
  | rbrIsempty => exact answer_nextAlike h (by rw [ringEmpty, h.cnt_eq]; rfl)
  | rbtAvail => exact answer_nextAlike h (by rw [ringAvail, h.cnt_eq, h.cfg_eq]; rfl)
  | rbrAvail => exact answer_nextAlike h (by rw [ringAvail, h.cnt_eq, h.cfg_eq]; rfl)
  | rbtCap | rbrCap => exact answer_nextAlike h (by rw [h.cfg_eq])
  | rbtIsfull => exact answer_nextAlike h (by rw [ringFull, h.cnt_eq, h.cfg_eq]; rfl)
  | rbrIsfull => exact answer_nextAlike h (by rw [ringFull, h.cnt_eq, h.cfg_eq]; rfl)
  | ltxStart => exact startTx_nextAlike h
  | ltxDone => exact doneTx_nextAlike h
  | ltxFault | lrxFault => exact faultLink_nextAlike h
  | ltxStatus | ltxRetries | lrxStatus | lrxRetries => exact answer_nextAlike h (by rw [h.link_eq])
  | lrxStart => exact startRx_nextAlike h
  | lrxRead => exact readRx_nextAlike h
  | lrxIdle => exact answer_nextAlike h (by rw [h.port_eq])
  | fqEnq code => exact enqueueCode_nextAlike h code
  | fqDeq => exact dequeueCode_nextAlike h
  | encEncode v => exact execEncEncode_nextAlike h v
  | annTick => exact execAnnTick_nextAlike h

end Sys2Proof.Machine

namespace Sys2Proof.Claims

open Sys2Proof.Machine

/-- Settles O17: two such states are alike, and every command keeps them so. -/
theorem cursorsAreUnobservable : Obligations.CursorsAreUnobservable := by
  unfold Obligations.CursorsAreUnobservable
  intro i s s' t hs hs' hrest hrbt hrbr ht
  have hcfg : s'.cfg = s.cfg := by rw [hrest]
  have halike : s.Alike s.cfg s' := by
    refine ⟨fun r => ⟨hs.ring_inv r, hcfg ▸ hs'.ring_inv r, ?_⟩, hrest⟩
    cases r
    · exact hrbt
    · exact hrbr
  obtain ⟨t', ht', halike'⟩ := exec_nextAlike i halike t ht
  exact ⟨t', ht', halike'.rest, (halike'.ring_alike .rbt).content, (halike'.ring_alike .rbr).content⟩

end Sys2Proof.Claims

/-! A storage in canonical form is determined by what it reads as (20_memory.md R70, log entry 9). -/

namespace Sys2Proof.Machine

variable {α : Type} {d v w : α} {m m' : Store α} {k k' : Nat}

theorem Store.read_cons_self : Store.read d ((k, v) :: m) k = v := if_pos rfl

theorem Store.read_cons_of_ne {a : Nat} (ha : k ≠ a) : Store.read d ((k, v) :: m) a = Store.read d m a := if_neg ha

/-- A listed element differs from what an unlisted index reads as, so a storage that reads alike does not begin above
its index. -/
theorem Store.not_all_gt_of_read_eq (h : Store.wf d ((k, v) :: m))
    (hread : Store.read d ((k, v) :: m) k = Store.read d m' k) : ¬ ∀ p ∈ m', k < p.1 := by
  intro hgt
  rw [Store.read_cons_self, Store.read_of_lt hgt] at hread
  exact h.2 (k, v) (by simp) hread

theorem Store.head_le_of_read_eq (h : Store.wf d ((k, v) :: m)) (h' : Store.wf d ((k', w) :: m'))
    (hread : Store.read d ((k, v) :: m) k = Store.read d ((k', w) :: m') k) : k' ≤ k := by
  by_contra hlt
  refine Store.not_all_gt_of_read_eq h hread fun p hp => ?_
  rcases List.mem_cons.mp hp with rfl | hp
  · exact not_le.mp hlt
  · exact (not_le.mp hlt).trans (Store.wf_head_lt h' p hp)

theorem Store.read_tail_eq (h : Store.wf d ((k, v) :: m)) (h' : Store.wf d ((k, w) :: m'))
    (hread : ∀ a, Store.read d ((k, v) :: m) a = Store.read d ((k, w) :: m') a) (a : Nat) :
    Store.read d m a = Store.read d m' a := by
  by_cases ha : k = a
  · subst ha
    rw [Store.read_of_lt (Store.wf_head_lt h), Store.read_of_lt (Store.wf_head_lt h')]
  · simpa only [Store.read_cons_of_ne ha] using hread a

/-- Two storages in canonical form that read alike list the same elements: their first indices bound each other, the
first elements are what is read there, and the tails read alike. -/
theorem Store.eq_of_read_eq (h : Store.wf d m) (h' : Store.wf d m')
    (hread : ∀ a, Store.read d m a = Store.read d m' a) : m = m' := by
  induction m generalizing m' with
  | nil =>
    cases m' with
    | nil => rfl
    | cons q m' => exact absurd (by simp) (Store.not_all_gt_of_read_eq h' (hread q.1).symm)
  | cons p m ih =>
    cases m' with
    | nil => exact absurd (by simp) (Store.not_all_gt_of_read_eq h (hread p.1))
    | cons q m' =>
      obtain ⟨k, v⟩ := p
      obtain ⟨k', w⟩ := q
      obtain rfl : k = k' :=
        le_antisymm (Store.head_le_of_read_eq h' h (hread k').symm) (Store.head_le_of_read_eq h h' (hread k))
      obtain rfl : v = w := by simpa only [Store.read_cons_self] using hread k
      rw [ih (Store.wf_tail h) (Store.wf_tail h') (Store.read_tail_eq h h' hread)]

end Sys2Proof.Machine

namespace Sys2Proof.Claims

open Sys2Proof.Machine

/-- Settles O53: a byte storage is a storage whose unlisted indices read as 0. -/
theorem canonicalStoragesThatReadAlikeAreEqual : Obligations.CanonicalStoragesThatReadAlikeAreEqual := by
  unfold Obligations.CanonicalStoragesThatReadAlikeAreEqual
  exact fun _ _ => Store.eq_of_read_eq

end Sys2Proof.Claims

/-! No step from a state that meets the invariant faults (20_memory.md R70, R74): only ENG.RXBYTE, ENG.TXBYTE and
ANN.TICK can, and LT-INV and ANN-INV keep their indices inside the storage (10_state.md R36, R48). -/

namespace Sys2Proof.Machine

variable {s t : State} {r : Ring} {d : Dir} {n : Nat}

/-- The outcome is a next state or a refusal. -/
def Faultless (x : Result) : Prop := ∀ f, x ≠ .fault f

theorem faultless_next (t : State) : Faultless (.next t) := nofun

theorem faultless_refused (f : Refusal) : Faultless (.refused f) := nofun

/-! ### The commands whose operation has no fault -/

theorem pushRing_faultless : Faultless (pushRing r n s) := by
  rcases pushRing_cases (r := r) (n := n) (s := s) with ⟨-, e⟩ | ⟨-, -, e⟩ | ⟨-, -, e⟩ <;> rw [e]
  · exact faultless_next _
  · exact faultless_refused _
  · exact faultless_next _

theorem popnRing_faultless : Faultless (popnRing r n s) := by
  rcases popnRing_cases (r := r) (n := n) (s := s) with ⟨-, e⟩ | ⟨-, e⟩ <;> rw [e]
  all_goals exact faultless_next _

theorem startTx_faultless : Faultless (startTx n s) := by
  rcases startTx_cases (s := s) (len := n) with ⟨-, e⟩ | ⟨-, -, -, e⟩ | ⟨-, -, e⟩ <;> rw [e]
  all_goals exact faultless_next _

theorem doneTx_faultless : Faultless (doneTx s) := by
  unfold doneTx
  split <;> exact faultless_next _

theorem faultLink_faultless : Faultless (faultLink d s) := by
  rcases faultLink_cases (s := s) (d := d) with ⟨-, e⟩ | ⟨-, -, e⟩ | ⟨-, -, e⟩ <;> rw [e]
  all_goals exact faultless_next _

theorem startRx_faultless : Faultless (startRx s) := by
  rcases startRx_cases (s := s) with ⟨-, e⟩ | ⟨-, e⟩ <;> rw [e]
  all_goals exact faultless_next _

theorem readRx_faultless : Faultless (readRx s) := by
  rcases readRx_cases (s := s) with ⟨-, e⟩ | ⟨-, e⟩ | ⟨-, -, e⟩ | ⟨-, -, e⟩ <;> rw [e]
  all_goals exact faultless_next _

theorem enqueueCode_faultless (code : Half) : Faultless (enqueueCode code s) := by
  unfold enqueueCode
  split <;> exact faultless_next _

theorem dequeueCode_faultless : Faultless (dequeueCode s) := by
  unfold dequeueCode
  split <;> exact faultless_next _

theorem execEncEncode_faultless (v : Half) : Faultless (execEncEncode v s) := by
  unfold execEncEncode
  split <;> exact faultless_next _

/-! ### ANN.TICK and the engine moves -/

theorem tickLoad_faultless : Faultless (tickLoad s) := by
  rcases tickLoad_cases (s := s) with ⟨-, e⟩ | ⟨_, _, -, -, e⟩ | ⟨_, _, _, -, -, e⟩ <;> rw [e]
  all_goals exact faultless_next _

theorem tickSymbol_faultless (f : Annunciator → Symbol → Annunciator) (hidx : s.ann.idx < s.cfg.seqMax) :
    Faultless (tickSymbol f s) := by
  rcases tickSymbol_cases (s := s) f with ⟨-, e⟩ | ⟨hout, -⟩
  · rw [e]
    exact faultless_next _
  · omega

/-- Whatever reads the current symbol stands below `slen`: in Idle by the test of R281, elsewhere by ANN-INV. -/
theorem execAnnTick_faultless (h : s.Inv) : Faultless (execAnnTick s) := by
  obtain ⟨-, hplay, -, -, -, hslen, -⟩ := h.ann_inv
  have hactive (hst : s.ann.st ≠ .idle) : s.ann.idx < s.cfg.seqMax := (hplay hst).2.trans_le hslen
  unfold execAnnTick tickBranch
  split
  · exact faultless_refused _
  split
  · split
    · exact tickLoad_faultless
    split
    · exact faultless_next _
    · exact tickSymbol_faultless _ (by omega)
  next hst => exact tickSymbol_faultless _ (hactive (by simp [hst]))
  next hst => exact tickSymbol_faultless _ (hactive (by simp [hst]))

/-- ENG.RXBYTE writes at `N - rem`, and a receive has a byte to come and none beyond N (R172, R36). -/
theorem moveRxByte_faultless (h : s.Inv) (b : Byte) : Faultless (moveRxByte b s) := by
  obtain ⟨hrem, htl, -⟩ := h.link_inv .rx
  simp only [link_rx] at hrem htl
  unfold moveRxByte
  split
  next hon =>
    rw [if_pos (by omega)]
    exact faultless_next _
  · exact faultless_refused _

/-- ENG.TXBYTE reads at `tl - rem` (R173, R36). -/
theorem moveTxByte_faultless (h : s.Inv) : Faultless (moveTxByte s) := by
  obtain ⟨hrem, htl, -⟩ := h.link_inv .tx
  simp only [link_tx] at hrem htl
  unfold moveTxByte
  split
  next hon =>
    rw [if_pos (by omega)]
    exact faultless_next _
  · exact faultless_refused _

theorem moveComplete_faultless : Faultless (moveComplete d s) := by
  unfold moveComplete
  split
  · exact faultless_next _
  · exact faultless_refused _

theorem moveFault_faultless : Faultless (moveFault d s) := by
  unfold moveFault
  split
  · exact faultless_next _
  · exact faultless_refused _

/-! ### Every command and every event -/

theorem exec_faultless (i : Instr) (h : s.Inv) : Faultless (exec i s) := by
  cases i with
  | rbtPush | rbrPush => exact pushRing_faultless
  | rbtPop | rbrPop | rbtClear | rbrClear => exact faultless_next _
  | rbtPopn | rbrPopn => exact popnRing_faultless
  | rbtLen | rbtIsempty | rbtAvail | rbtCap | rbtIsfull => exact faultless_next _
  | rbrLen | rbrIsempty | rbrAvail | rbrCap | rbrIsfull => exact faultless_next _
  | ltxStart => exact startTx_faultless
  | ltxDone => exact doneTx_faultless
  | ltxFault | lrxFault => exact faultLink_faultless
  | ltxStatus | ltxRetries | lrxStatus | lrxRetries | lrxIdle => exact faultless_next _
  | lrxStart => exact startRx_faultless
  | lrxRead => exact readRx_faultless
  | fqEnq code => exact enqueueCode_faultless code
  | fqDeq => exact dequeueCode_faultless
  | encEncode v => exact execEncEncode_faultless v
  | annTick => exact execAnnTick_faultless h

theorem runTransaction_faultless (h : s.Inv) (x : Transaction) : Faultless (runTransaction x s) := by
  unfold runTransaction
  split
  · exact exec_faultless _ (setPort_inv h _)
  · exact faultless_next _

theorem issue_faultless (h : s.Inv) (i : Instr) (din : List Byte) : Faultless (issue i din s) :=
  exec_faultless i (setPort_inv h _)

theorem issuePush_faultless (h : s.Inv) (i : Instr) (data : List Byte) : Faultless (issuePush i data n s) := by
  unfold issuePush
  split
  · split
    · split <;> exact faultless_next _
    · exact faultless_next _
  next e he => exact absurd he (issue_faultless h i data e)
  · exact faultless_refused _

theorem hostIn_faultless (h : s.Inv) (enumerated : Bool) (inbound : Option (List Byte)) :
    Faultless (hostIn enumerated inbound s) := by
  unfold hostIn
  split
  · exact faultless_next _
  split
  · exact faultless_next _
  split
  · exact issuePush_faultless h _ _
  · exact faultless_refused _

theorem hostOutPop_faultless (h : s.Inv) : Faultless (hostOutPop s) := by
  unfold hostOutPop
  split
  · split
    · split
      · split <;> exact faultless_next _
      · exact faultless_next _
    next e he => exact absurd he (issue_faultless h _ _ e)
    · exact faultless_refused _
  · exact faultless_refused _
  · exact faultless_refused _

theorem hostOutWrite_faultless (k : Nat) : Faultless (hostOutWrite k s) := by
  unfold hostOutWrite
  split
  · split
    · dsimp only
      split <;> exact faultless_next _
    · exact faultless_refused _
  · exact faultless_refused _
  · exact faultless_refused _

theorem hostOutRequeue_faultless (h : s.Inv) : Faultless (hostOutRequeue s) := by
  unfold hostOutRequeue
  split
  · exact issuePush_faultless (setStaging_inv h (Nat.zero_le _)) _ _
  · exact faultless_refused _
  · exact faultless_refused _

theorem runEvent_faultless (e : Event) (h : s.Inv) : Faultless (runEvent e s) := by
  cases e with
  | command x => exact runTransaction_faultless h x
  | engRxByte b => exact moveRxByte_faultless h b
  | engTxByte => exact moveTxByte_faultless h
  | engComplete d => exact moveComplete_faultless
  | engFault d => exact moveFault_faultless
  | blockReset => exact faultless_next _
  | hbIn enumerated inbound => exact hostIn_faultless h enumerated inbound
  | hbOut => exact hostOutPop_faultless h
  | hbOutWrite k => exact hostOutWrite_faultless k
  | hbOutRequeue => exact hostOutRequeue_faultless h
  | dispatch f => exact issue_faultless h (.fqEnq _) []

theorem step_faultless (h : s.Inv) : Faultless (step s) := by
  unfold step
  split
  · exact faultless_next _
  · exact runEvent_faultless _ (begin_inv h _)

end Sys2Proof.Machine

namespace Sys2Proof.Claims

open Sys2Proof.Machine

/-- Settles O44: a step waits or runs one event, and no event faults. -/
theorem noStepLeavesAStorage : Obligations.NoStepLeavesAStorage := by
  unfold Obligations.NoStepLeavesAStorage
  exact fun _ f h => step_faultless h f

end Sys2Proof.Claims

/-! Which units a command reaches (20_memory.md R70): each operation as updates of the state, each update of one unit
allowed where the command reaches that unit. -/

namespace Sys2Proof.Machine

variable {s t : State} {r : Ring} {d : Dir} {n : Nat}

/-- A unit of R20 by name. -/
inductive BlockUnit where
  | ring (r : Ring)
  | link (d : Dir)
  | queue
  | annunciator

variable {p : BlockUnit → Prop}

/-- What lies outside the block, but the response, is as it was, and a unit that differs is one of `p`. -/
structure ChangesOnly (p : BlockUnit → Prop) (s t : State) : Prop where
  surround : s.SameSurround t
  rbt : t.rbt ≠ s.rbt → p (.ring .rbt)
  rbr : t.rbr ≠ s.rbr → p (.ring .rbr)
  ltx : t.ltx ≠ s.ltx → p (.link .tx)
  lrx : t.lrx ≠ s.lrx → p (.link .rx)
  fq : t.fq ≠ s.fq → p .queue
  ann : t.ann ≠ s.ann → p .annunciator

namespace ChangesOnly

theorem refl : ChangesOnly p s s where
  surround := ⟨rfl, rfl, rfl, rfl, rfl, rfl, rfl⟩
  rbt h := absurd rfl h
  rbr h := absurd rfl h
  ltx h := absurd rfl h
  lrx h := absurd rfl h
  fq h := absurd rfl h
  ann h := absurd rfl h

theorem respond (h : ChangesOnly p s t) (st : Status) (v : Bool) (val : Half) (dout : List Byte) :
    ChangesOnly p s (respond t st v val dout) := { h with }

theorem answer (h : ChangesOnly p s t) (val : Half) : ChangesOnly p s (answer t val) := h.respond ..

theorem acknowledge (h : ChangesOnly p s t) : ChangesOnly p s (acknowledge t) := h.respond ..

theorem raiseError (h : ChangesOnly p s t) (e : Status) : ChangesOnly p s (raiseError t e) := h.respond ..

theorem respondStart (h : ChangesOnly p s t) (v : Bool) (val : Half) : ChangesOnly p s (respondStart t d v val) := by
  rcases respondStart_cases (s := t) (d := d) v val with ⟨-, e⟩ | ⟨-, e⟩ <;> rw [e]
  · exact h.respond ..
  · exact h.raiseError _

theorem setRing (h : ChangesOnly p s t) (hp : p (.ring r)) (rb : RingBuf) : ChangesOnly p s (t.setRing r rb) := by
  cases r
  · exact { h with rbt := fun _ => hp }
  · exact { h with rbr := fun _ => hp }

theorem setLink (h : ChangesOnly p s t) (hp : p (.link d)) (l : Link) : ChangesOnly p s (t.setLink d l) := by
  cases d
  · exact { h with ltx := fun _ => hp }
  · exact { h with lrx := fun _ => hp }

theorem setFq (h : ChangesOnly p s t) (hp : p .queue) (q : List Half) : ChangesOnly p s { t with fq := q } :=
  { h with fq := fun _ => hp }

theorem setAnn (h : ChangesOnly p s t) (hp : p .annunciator) (a : Annunciator) : ChangesOnly p s { t with ann := a } :=
  { h with ann := fun _ => hp }

end ChangesOnly

/-- Whatever next state an outcome gives differs from `s` in units of `p` only. -/
def NextChangesOnly (p : BlockUnit → Prop) (s : State) (x : Result) : Prop := ∀ t, x = .next t → ChangesOnly p s t

theorem nextChangesOnly_next (h : ChangesOnly p s t) : NextChangesOnly p s (.next t) := by
  rintro u ⟨⟩
  exact h

theorem nextChangesOnly_fault (f : Fault) : NextChangesOnly p s (.fault f) := fun _ ht => nomatch ht

theorem nextChangesOnly_refused (f : Refusal) : NextChangesOnly p s (.refused f) := fun _ ht => nomatch ht

/-! ### The shared operations -/

theorem takeRing_changesOnly (hp : p (.ring r)) : ChangesOnly p s (takeRing r n s) :=
  (ChangesOnly.refl.setRing hp _).respond ..

theorem pushRing_changesOnly (hp : p (.ring r)) : NextChangesOnly p s (pushRing r n s) := by
  rcases pushRing_cases (r := r) (n := n) (s := s) with ⟨-, e⟩ | ⟨-, -, e⟩ | ⟨-, -, e⟩ <;> rw [e]
  · exact nextChangesOnly_next (ChangesOnly.refl.raiseError _)
  · exact nextChangesOnly_refused _
  · exact nextChangesOnly_next ((ChangesOnly.refl.setRing hp _).answer _)

theorem popnRing_changesOnly (hp : p (.ring r)) : NextChangesOnly p s (popnRing r n s) := by
  rcases popnRing_cases (r := r) (n := n) (s := s) with ⟨-, e⟩ | ⟨-, e⟩ <;> rw [e]
  · exact nextChangesOnly_next (takeRing_changesOnly hp)
  · exact nextChangesOnly_next (ChangesOnly.refl.raiseError _)

theorem clearRing_changesOnly (hp : p (.ring r)) : NextChangesOnly p s (clearRing r s) :=
  nextChangesOnly_next (ChangesOnly.refl.setRing hp _).acknowledge

theorem startTx_changesOnly (hring : p (.ring .rbt)) (hlink : p (.link .tx)) : NextChangesOnly p s (startTx n s) := by
  rcases startTx_cases (s := s) (len := n) with ⟨-, e⟩ | ⟨-, -, -, e⟩ | ⟨-, -, e⟩ <;> rw [e]
  · exact nextChangesOnly_next (ChangesOnly.refl.raiseError _)
  · exact nextChangesOnly_next (ChangesOnly.refl.raiseError _)
  · exact nextChangesOnly_next (((ChangesOnly.refl.setRing hring _).setLink hlink _).respondStart ..)

theorem doneTx_changesOnly (hp : p (.link .tx)) : NextChangesOnly p s (doneTx s) := by
  unfold doneTx
  split
  · exact nextChangesOnly_next ((ChangesOnly.refl.setLink hp _).answer _)
  · exact nextChangesOnly_next (ChangesOnly.refl.answer _)

theorem faultLink_changesOnly (hp : p (.link d)) : NextChangesOnly p s (faultLink d s) := by
  rcases faultLink_cases (s := s) (d := d) with ⟨-, e⟩ | ⟨-, -, e⟩ | ⟨-, -, e⟩ <;> rw [e]
  · exact nextChangesOnly_next (ChangesOnly.refl.answer _)
  · exact nextChangesOnly_next ((ChangesOnly.refl.setLink hp _).respondStart ..)
  · exact nextChangesOnly_next ((ChangesOnly.refl.setLink hp _).raiseError _)

theorem startRx_changesOnly (hp : p (.link .rx)) : NextChangesOnly p s (startRx s) := by
  rcases startRx_cases (s := s) with ⟨-, e⟩ | ⟨-, e⟩ <;> rw [e]
  · exact nextChangesOnly_next (ChangesOnly.refl.raiseError _)
  · exact nextChangesOnly_next ((ChangesOnly.refl.setLink hp _).respondStart ..)

theorem readRx_changesOnly (hring : p (.ring .rbr)) (hlink : p (.link .rx)) : NextChangesOnly p s (readRx s) := by
  rcases readRx_cases (s := s) with ⟨-, e⟩ | ⟨-, e⟩ | ⟨-, -, e⟩ | ⟨-, -, e⟩ <;> rw [e]
  · exact nextChangesOnly_next (ChangesOnly.refl.raiseError _)
  · exact nextChangesOnly_next (ChangesOnly.refl.answer _)
  · exact nextChangesOnly_next (ChangesOnly.refl.raiseError _)
  · exact nextChangesOnly_next (((ChangesOnly.refl.setRing hring _).setLink hlink _).answer _)

theorem enqueueCode_changesOnly (hp : p .queue) (code : Half) : NextChangesOnly p s (enqueueCode code s) := by
  unfold enqueueCode
  split
  · exact nextChangesOnly_next (ChangesOnly.refl.setFq hp _).acknowledge
  · exact nextChangesOnly_next (ChangesOnly.refl.raiseError _)

theorem dequeueCode_changesOnly (hp : p .queue) : NextChangesOnly p s (dequeueCode s) := by
  unfold dequeueCode
  split
  · exact nextChangesOnly_next ChangesOnly.refl.acknowledge
  · exact nextChangesOnly_next ((ChangesOnly.refl.setFq hp _).answer _)

theorem execEncEncode_changesOnly (v : Half) : NextChangesOnly p s (execEncEncode v s) := by
  unfold execEncEncode
  split
  · exact nextChangesOnly_next (ChangesOnly.refl.respond ..)
  · exact nextChangesOnly_next (ChangesOnly.refl.raiseError _)

theorem respondTick_changesOnly (h : ChangesOnly p s t) : NextChangesOnly p s (respondTick t) :=
  nextChangesOnly_next (h.answer _)

theorem tickLoad_changesOnly (hqueue : p .queue) (hann : p .annunciator) : NextChangesOnly p s (tickLoad s) := by
  have htaken (q : List Half) : ChangesOnly p s { s with fq := q } := ChangesOnly.refl.setFq hqueue q
  rcases tickLoad_cases (s := s) with ⟨-, e⟩ | ⟨_, q, -, -, e⟩ | ⟨_, q, syms, -, -, e⟩ <;> rw [e]
  · exact respondTick_changesOnly .refl
  · exact nextChangesOnly_next ((htaken q).raiseError _)
  · exact respondTick_changesOnly ((htaken q).setAnn hann (loadSeq s.ann syms))

theorem tickSymbol_changesOnly (f : Annunciator → Symbol → Annunciator) (hp : p .annunciator) :
    NextChangesOnly p s (tickSymbol f s) := by
  rcases tickSymbol_cases (s := s) f with ⟨-, e⟩ | ⟨-, e⟩ <;> rw [e]
  · exact respondTick_changesOnly (ChangesOnly.refl.setAnn hp _)
  · exact nextChangesOnly_fault _

theorem execAnnTick_changesOnly (hqueue : p .queue) (hann : p .annunciator) :
    NextChangesOnly p s (execAnnTick s) := by
  unfold execAnnTick tickBranch
  split
  · exact nextChangesOnly_refused _
  split
  · split
    · exact tickLoad_changesOnly hqueue hann
    split
    · exact respondTick_changesOnly (ChangesOnly.refl.setAnn hann _)
    · exact tickSymbol_changesOnly _ hann
  · exact tickSymbol_changesOnly _ hann
  · exact tickSymbol_changesOnly _ hann

/-! ### Every command -/

/-- The commands that reach each unit (R70). -/
def Reaches (i : Instr) : BlockUnit → Prop
  | .ring .rbt => (∃ n, i = .rbtPush n ∨ i = .rbtPop n ∨ i = .rbtPopn n ∨ i = .ltxStart n) ∨ i = .rbtClear
  | .ring .rbr => (∃ n, i = .rbrPush n ∨ i = .rbrPop n ∨ i = .rbrPopn n) ∨ i = .rbrClear ∨ i = .lrxRead
  | .link .tx => (∃ n, i = .ltxStart n) ∨ i = .ltxDone ∨ i = .ltxFault
  | .link .rx => i = .lrxStart ∨ i = .lrxRead ∨ i = .lrxFault
  | .queue => (∃ n, i = .fqEnq n) ∨ i = .fqDeq ∨ i = .annTick
  | .annunciator => i = .annTick

theorem exec_changesOnly (i : Instr) : NextChangesOnly (Reaches i) s (exec i s) := by
  cases i with
  | rbtPush | rbrPush => exact pushRing_changesOnly (by simp [Reaches])
  | rbtPop | rbrPop => exact nextChangesOnly_next (takeRing_changesOnly (by simp [Reaches]))
  | rbtPopn | rbrPopn => exact popnRing_changesOnly (by simp [Reaches])
  | rbtClear | rbrClear => exact clearRing_changesOnly (by simp [Reaches])
  | rbtLen | rbtIsempty | rbtAvail | rbtCap | rbtIsfull => exact nextChangesOnly_next (ChangesOnly.refl.answer _)
  | rbrLen | rbrIsempty | rbrAvail | rbrCap | rbrIsfull => exact nextChangesOnly_next (ChangesOnly.refl.answer _)
  | ltxStart => exact startTx_changesOnly (by simp [Reaches]) (by simp [Reaches])
  | ltxDone => exact doneTx_changesOnly (by simp [Reaches])
  | ltxFault | lrxFault => exact faultLink_changesOnly (by simp [Reaches])
  | ltxStatus | ltxRetries | lrxStatus | lrxRetries | lrxIdle =>
    exact nextChangesOnly_next (ChangesOnly.refl.answer _)
  | lrxStart => exact startRx_changesOnly (by simp [Reaches])
  | lrxRead => exact readRx_changesOnly (by simp [Reaches]) (by simp [Reaches])
  | fqEnq code => exact enqueueCode_changesOnly (by simp [Reaches]) code
  | fqDeq => exact dequeueCode_changesOnly (by simp [Reaches])
  | encEncode v => exact execEncEncode_changesOnly v
  | annTick => exact execAnnTick_changesOnly (by simp [Reaches]) rfl

end Sys2Proof.Machine

namespace Sys2Proof.Claims

open Sys2Proof.Machine

/-- Settles O49: every command changes only units it reaches. -/
theorem unitsAreReachedOnlyByTheirCommands : Obligations.UnitsAreReachedOnlyByTheirCommands := by
  unfold Obligations.UnitsAreReachedOnlyByTheirCommands
  intro i s t ht
  obtain ⟨hsurround, hrbt, hrbr, hltx, hlrx, hfq, hann⟩ := exec_changesOnly i t ht
  exact ⟨hsurround, hrbt, hrbr, hltx, hlrx, hfq, hann⟩

end Sys2Proof.Claims

/-! Two states that differ at most in what their storages hold from their size upward, C, N or SEQMAX: every step
answers alike on them, leaves them so, and writes nothing there (20_memory.md R70, R73, R74). -/

namespace Sys2Proof.Machine

variable {c : Config} {s s' b b' : State} {r : Ring} {d : Dir} {n k : Nat}

/-! ### Storages -/

section

variable {α : Type} {z : α} {m m' : Store α} {a : Nat} {vs : List α}

/-- Two storages in canonical form that read alike below `n`. -/
structure Store.AlikeBelow (z : α) (n : Nat) (m m' : Store α) : Prop where
  wf : Store.wf z m
  wf' : Store.wf z m'
  read_eq : ∀ a, a < n → Store.read z m' a = Store.read z m a

/-- Two storages that read alike from `n` upward. -/
def Store.SameFrom (z : α) (n : Nat) (m m' : Store α) : Prop := ∀ a, n ≤ a → Store.read z m' a = Store.read z m a

theorem Store.SameFrom.refl : Store.SameFrom z n m m := fun _ _ => rfl

theorem Store.SameFrom.trans {m₁ m₂ m₃ : Store α} (h : Store.SameFrom z n m₁ m₂) (h' : Store.SameFrom z n m₂ m₃) :
    Store.SameFrom z n m₁ m₃ := fun a ha => (h' a ha).trans (h a ha)

theorem Store.AlikeBelow.readRun_eq (h : Store.AlikeBelow z n m m') (ha : a + k ≤ n) :
    Store.readRun z m' a k = Store.readRun z m a k := by
  rw [Store.readRun_eq_map, Store.readRun_eq_map]
  refine List.map_congr_left fun i hi => h.read_eq _ ?_
  have := List.mem_range.mp hi
  omega

variable [DecidableEq α]

theorem Store.AlikeBelow.writeRun (h : Store.AlikeBelow z n m m') (a : Nat) (vs : List α) :
    Store.AlikeBelow z n (Store.writeRun z m a vs) (Store.writeRun z m' a vs) where
  wf := Store.writeRun_wf h.wf vs
  wf' := Store.writeRun_wf h.wf' vs
  read_eq i hi := by rw [Store.read_writeRun h.wf', Store.read_writeRun h.wf, h.read_eq i hi]

theorem Store.sameFrom_writeRun (h : Store.wf z m) (ha : a + vs.length ≤ n) :
    Store.SameFrom z n m (Store.writeRun z m a vs) := by
  intro i hi
  rw [Store.read_writeRun h, if_neg (by omega)]

end

/-! ### One ring buffer -/

/-- `rb'` is `rb` but for what it holds from C upward, and there it holds what `b` does unless it is at reset. -/
structure RingBuf.Confined (c : Config) (b rb rb' : RingBuf) : Prop where
  cells : Store.AlikeBelow 0 c.ringCap rb.mem rb'.mem
  above : rb' = .atReset ∨ Store.SameFrom 0 c.ringCap b.mem rb'.mem
  rest : rb' = { rb with mem := rb'.mem }

namespace RingBuf.Confined

variable {b rb rb' : RingBuf} {data : List Byte}

theorem exists_mem (h : Confined c b rb rb') : ∃ m, rb' = { rb with mem := m } := ⟨_, h.rest⟩

theorem cnt_eq (h : Confined c b rb rb') : rb'.cnt = rb.cnt := (congrArg RingBuf.cnt h.rest :)

theorem atReset : Confined c b .atReset .atReset := ⟨⟨Memory.reset_wf, Memory.reset_wf, fun _ _ => rfl⟩, .inl rfl, rfl⟩

/-- The two runs of a POP lie below C. -/
theorem front_eq (h : Confined c b rb rb') (hi : rb.Inv c) (hk : k ≤ rb.cnt) :
    ringFront c rb' k = ringFront c rb k := by
  have hcells := h.cells
  obtain ⟨m, rfl⟩ := h.exists_mem
  obtain ⟨-, -, hrp, hcnt, -⟩ := hi
  exact congrArg₂ (· ++ ·) (hcells.readRun_eq (by simp only; omega))
    (hcells.readRun_eq (by simp only; omega))

/-- The two runs of a PUSH lie below C. -/
theorem append (h : Confined c rb' rb rb') (hi : rb.Inv c) (hn : data.length ≤ c.ringCap - rb.cnt) :
    Confined c rb' (ringAppend c rb data) (ringAppend c rb' data) := by
  have hcells := h.cells
  obtain ⟨m, rfl⟩ := h.exists_mem
  obtain ⟨-, hwp, -, hcnt, -⟩ := hi
  refine ⟨(hcells.writeRun _ _).writeRun _ _, .inr ?_, rfl⟩
  refine (Store.sameFrom_writeRun hcells.wf' ?_).trans
    (Store.sameFrom_writeRun (Store.writeRun_wf hcells.wf' _) ?_)
  · simp only [List.length_take]
    omega
  · simp only [List.length_drop]
    omega

/-- A POP writes no storage. -/
theorem drop (h : Confined c rb' rb rb') (k : Nat) : Confined c rb' (ringDrop c rb k) (ringDrop c rb' k) := by
  have hcells := h.cells
  obtain ⟨m, rfl⟩ := h.exists_mem
  exact ⟨hcells, .inr .refl, rfl⟩

end RingBuf.Confined

/-! ### One link direction -/

/-- `l'` is `l` but for what its buffer holds from N upward, and there it holds what `b` does unless it is at reset. -/
structure Link.Confined (c : Config) (b l l' : Link) : Prop where
  cells : Store.AlikeBelow 0 c.bufSize l.hb l'.hb
  above : l' = .atReset ∨ Store.SameFrom 0 c.bufSize b.hb l'.hb
  rest : l' = { l with hb := l'.hb }

namespace Link.Confined

variable {b l l' : Link}

theorem exists_hb (h : Confined c b l l') : ∃ m, l' = { l with hb := m } := ⟨_, h.rest⟩

theorem xs_eq (h : Confined c b l l') : l'.xs = l.xs := (congrArg Link.xs h.rest :)
theorem ff_eq (h : Confined c b l l') : l'.ff = l.ff := (congrArg Link.ff h.rest :)
theorem rc_eq (h : Confined c b l l') : l'.rc = l.rc := (congrArg Link.rc h.rest :)
theorem rem_eq (h : Confined c b l l') : l'.rem = l.rem := (congrArg Link.rem h.rest :)
theorem tl_eq (h : Confined c b l l') : l'.tl = l.tl := (congrArg Link.tl h.rest :)

theorem atReset : Confined c b .atReset .atReset := ⟨⟨Memory.reset_wf, Memory.reset_wf, fun _ _ => rfl⟩, .inl rfl, rfl⟩

/-- An update that neither reads nor writes the buffer. -/
theorem update (h : Confined c l' l l') (f : Link → Link) (hf : ∀ x m, f { x with hb := m } = { f x with hb := m }) :
    Confined c l' (f l) (f l') := by
  have hb (x : Link) : (f x).hb = x.hb := (congrArg Link.hb (hf x x.hb) :)
  refine ⟨?_, .inr ?_, ?_⟩
  · rw [hb, hb]
    exact h.cells
  · rw [hb]
    exact .refl
  · rw [hb, ← hf, ← h.rest]

/-- LTX.START loads at most N bytes (R177). -/
theorem load (h : Confined c l' l l') (ok : Bool) {data : List Byte} (hdata : data.length ≤ c.bufSize) (n : Nat) :
    Confined c l' (startLink ok { l with hb := Memory.writeRun l.hb 0 data, tl := n, rem := n })
      (startLink ok { l' with hb := Memory.writeRun l'.hb 0 data, tl := n, rem := n }) := by
  have hcells := h.cells.writeRun 0 data
  have habove := Store.sameFrom_writeRun (n := c.bufSize) (a := 0) (vs := data) h.cells.wf' (by omega)
  obtain ⟨m, rfl⟩ := h.exists_hb
  cases ok <;> exact ⟨hcells, .inr habove, rfl⟩

/-- ENG.RXBYTE stores below N (R172). -/
theorem stored (h : Confined c l' l l') (hin : c.bufSize - l.rem < c.bufSize) (v : Byte) :
    Confined c l' (rxStored c v l) (rxStored c v l') := by
  have hcells := h.cells.writeRun (c.bufSize - l.rem) [v]
  have habove := Store.sameFrom_writeRun (a := c.bufSize - l.rem) (vs := [v]) h.cells.wf' hin
  obtain ⟨m, rfl⟩ := h.exists_hb
  exact ⟨hcells, .inr habove, rfl⟩

end Link.Confined

/-! ### The annunciator -/

/-- `a'` is `a` but for what its sequence store holds from SEQMAX upward, and there it holds what `b` does unless it is
at reset. -/
structure Annunciator.Confined (c : Config) (b a a' : Annunciator) : Prop where
  cells : Store.AlikeBelow Symbol.dot c.seqMax a.seq a'.seq
  above : a' = .atReset ∨ Store.SameFrom Symbol.dot c.seqMax b.seq a'.seq
  rest : a' = { a with seq := a'.seq }

/-- An update of the annunciator by the current symbol that neither reads nor writes the sequence store. -/
def SeqBlind (f : Annunciator → Symbol → Annunciator) : Prop :=
  ∀ a sym q, f { a with seq := q } sym = { f a sym with seq := q }

theorem startSymbol_seqBlind (now : Nat) : SeqBlind (startSymbol now) := by
  intro a sym q
  cases sym <;> rfl

theorem signalSymbol_seqBlind (c : Config) (now : Nat) : SeqBlind (signalSymbol c now) := by
  intro a sym q
  unfold signalSymbol
  dsimp only
  split
  · rfl
  · split <;> rfl

theorem pauseSymbol_seqBlind (c : Config) (now : Nat) : SeqBlind (pauseSymbol c now) := by
  intro a sym q
  unfold pauseSymbol
  dsimp only
  split
  · rfl
  · split <;> rfl

theorem discardSeq_seqBlind : SeqBlind fun a _ => discardSeq a := fun _ _ _ => rfl

namespace Annunciator.Confined

variable {b a a' : Annunciator}

theorem exists_seq (h : Confined c b a a') : ∃ q, a' = { a with seq := q } := ⟨_, h.rest⟩

theorem st_eq (h : Confined c b a a') : a'.st = a.st := (congrArg Annunciator.st h.rest :)
theorem loaded_eq (h : Confined c b a a') : a'.loaded = a.loaded := (congrArg Annunciator.loaded h.rest :)
theorem slen_eq (h : Confined c b a a') : a'.slen = a.slen := (congrArg Annunciator.slen h.rest :)
theorem idx_eq (h : Confined c b a a') : a'.idx = a.idx := (congrArg Annunciator.idx h.rest :)
theorem tlast_eq (h : Confined c b a a') : a'.tlast = a.tlast := (congrArg Annunciator.tlast h.rest :)
theorem led_eq (h : Confined c b a a') : a'.led = a.led := (congrArg Annunciator.led h.rest :)

theorem atReset : Confined c b .atReset .atReset :=
  ⟨⟨⟨.nil, by simp [Annunciator.atReset]⟩, ⟨.nil, by simp [Annunciator.atReset]⟩, fun _ _ => rfl⟩, .inl rfl, rfl⟩

theorem update (h : Confined c a' a a') {f : Annunciator → Symbol → Annunciator} (hf : SeqBlind f) (sym : Symbol) :
    Confined c a' (f a sym) (f a' sym) := by
  have hseq (x : Annunciator) : (f x sym).seq = x.seq := (congrArg Annunciator.seq (hf x sym x.seq) :)
  refine ⟨?_, .inr ?_, ?_⟩
  · rw [hseq, hseq]
    exact h.cells
  · rw [hseq]
    exact .refl
  · rw [hseq, ← hf, ← h.rest]

/-- Branch LOAD stores at most SEQMAX symbols (R263, R282). -/
theorem load (h : Confined c a' a a') {syms : List Symbol} (hsyms : syms.length ≤ c.seqMax) :
    Confined c a' (loadSeq a syms) (loadSeq a' syms) := by
  have hcells := h.cells.writeRun 0 syms
  have habove := Store.sameFrom_writeRun (n := c.seqMax) (a := 0) (vs := syms) h.cells.wf' (by omega)
  obtain ⟨q, rfl⟩ := h.exists_seq
  exact ⟨hcells, .inr habove, rfl⟩

end Annunciator.Confined

/-! ### The whole state -/

/-- `s'` is `s` but for what its storages hold from their size upward, and there each holds what that of `b` does unless
its unit is at reset. A step is followed with `b` the second state as the step finds it. -/
structure State.Confined (c : Config) (b s s' : State) : Prop where
  cfg : s.cfg = c
  rbt : b.rbt.Confined c s.rbt s'.rbt
  rbr : b.rbr.Confined c s.rbr s'.rbr
  ltx : b.ltx.Confined c s.ltx s'.ltx
  lrx : b.lrx.Confined c s.lrx s'.lrx
  ann : b.ann.Confined c s.ann s'.ann
  rest : s' = { s with rbt := s'.rbt, rbr := s'.rbr, ltx := s'.ltx, lrx := s'.lrx, ann := s'.ann }

namespace State.Confined

theorem ring (h : b.Confined c s s') (r : Ring) : (b.ring r).Confined c (s.ring r) (s'.ring r) := by
  cases r
  · exact h.rbt
  · exact h.rbr

theorem link (h : b.Confined c s s') (d : Dir) : (b.link d).Confined c (s.link d) (s'.link d) := by
  cases d
  · exact h.ltx
  · exact h.lrx

theorem cfg_eq (h : b.Confined c s s') : s'.cfg = s.cfg := (congrArg State.cfg h.rest :)
theorem fq_eq (h : b.Confined c s s') : s'.fq = s.fq := (congrArg State.fq h.rest :)
theorem port_eq (h : b.Confined c s s') : s'.port = s.port := (congrArg State.port h.rest :)
theorem out_eq (h : b.Confined c s s') : s'.out = s.out := (congrArg State.out h.rest :)
theorem staging_eq (h : b.Confined c s s') : s'.staging = s.staging := (congrArg State.staging h.rest :)
theorem agenda_eq (h : b.Confined c s s') : s'.agenda = s.agenda := (congrArg State.agenda h.rest :)

/-- What lies above the sizes may be compared with any state of the same units. -/
theorem rebase (h : b.Confined c s s') (hb : b'.SameUnits b) : b'.Confined c s s' := by
  obtain ⟨hrbt, hrbr, hltx, hlrx, -, hann⟩ := hb
  exact { h with
    rbt := hrbt ▸ h.rbt
    rbr := hrbr ▸ h.rbr
    ltx := hltx ▸ h.ltx
    lrx := hlrx ▸ h.lrx
    ann := hann ▸ h.ann }

/-- What lies above the sizes is what it was when nothing has been written yet. -/
theorem self (h : b.Confined c s s') (hb : s'.SameUnits b) : s'.Confined c s s' := h.rebase hb

theorem setOut (h : b.Confined c s s') {o o' : Outputs} (ho : o' = o) :
    b.Confined c { s with out := o } { s' with out := o' } :=
  { h with rest := ho ▸ congrArg (fun u => { u with out := o' }) h.rest }

theorem setPort (h : b.Confined c s s') {p p' : Port} (hp : p' = p) :
    b.Confined c { s with port := p } { s' with port := p' } :=
  { h with rest := hp ▸ congrArg (fun u => { u with port := p' }) h.rest }

theorem setStaging (h : b.Confined c s s') (o : HostOut) :
    b.Confined c { s with staging := o } { s' with staging := o } :=
  { h with rest := congrArg (fun u => { u with staging := o }) h.rest }

theorem setFq (h : b.Confined c s s') {q q' : List Half} (hq : q' = q) :
    b.Confined c { s with fq := q } { s' with fq := q' } :=
  { h with rest := hq ▸ congrArg (fun u => { u with fq := q' }) h.rest }

theorem setAnn (h : b.Confined c s s') {a a' : Annunciator} (ha : b.ann.Confined c a a') :
    b.Confined c { s with ann := a } { s' with ann := a' } :=
  { h with ann := ha, rest := congrArg (fun u => { u with ann := a' }) h.rest }

theorem begin (h : b.Confined c s s') (rest : List Event) : b.Confined c (s.begin rest) (s'.begin rest) :=
  { h with rest := congrArg (State.begin · rest) h.rest }

theorem setRing (h : b.Confined c s s') {rb rb' : RingBuf} (hr : (b.ring r).Confined c rb rb') :
    b.Confined c (s.setRing r rb) (s'.setRing r rb') := by
  cases r
  · exact { h with rbt := hr, rest := congrArg (State.setRing · .rbt rb') h.rest }
  · exact { h with rbr := hr, rest := congrArg (State.setRing · .rbr rb') h.rest }

theorem setLink (h : b.Confined c s s') {l l' : Link} (hl : (b.link d).Confined c l l') :
    b.Confined c (s.setLink d l) (s'.setLink d l') := by
  cases d
  · exact { h with ltx := hl, rest := congrArg (State.setLink · .tx l') h.rest }
  · exact { h with lrx := hl, rest := congrArg (State.setLink · .rx l') h.rest }

theorem respond (h : b.Confined c s s') (st : Status) (v : Bool) {val val' : Half} {p p' : List Byte}
    (hval : val' = val) (hp : p' = p) : b.Confined c (respond s st v val p) (respond s' st v val' p') :=
  h.setOut (by rw [h.out_eq, hval, hp])

theorem answer (h : b.Confined c s s') {val val' : Half} (hval : val' = val) :
    b.Confined c (answer s val) (answer s' val') := h.respond _ _ hval rfl

theorem acknowledge (h : b.Confined c s s') : b.Confined c (acknowledge s) (acknowledge s') := h.respond _ _ rfl rfl

theorem raiseError (h : b.Confined c s s') (e : Status) : b.Confined c (raiseError s e) (raiseError s' e) :=
  h.respond _ _ rfl rfl

theorem respondStart (h : b.Confined c s s') (v : Bool) {val val' : Half} (hval : val' = val) :
    b.Confined c (respondStart s d v val) (respondStart s' d v val') := by
  unfold Machine.respondStart
  rw [h.port_eq]
  split
  · exact h.respond _ _ hval rfl
  · exact h.raiseError _

theorem emitWire (h : b.Confined c s s') {v v' : Byte} (hv : v' = v) : b.Confined c (emitWire s v) (emitWire s' v') :=
  h.setOut (by rw [h.out_eq, hv])

theorem returnBridge (h : b.Confined c s s') (o : BridgeResult) :
    b.Confined c (returnBridge s o) (returnBridge s' o) := h.setOut (by rw [h.out_eq])

theorem blockReset (h : b.Confined c s s') : b.Confined c (blockReset s) (blockReset s') :=
  ⟨h.cfg, .atReset, .atReset, .atReset, .atReset, .atReset, (congrArg Machine.blockReset h.rest :)⟩

end State.Confined

/-- Where the first outcome is a next state, so is the second, and the two are confined. -/
def NextConfined (c : Config) (b : State) (x x' : Result) : Prop :=
  ∀ t, x = .next t → ∃ t', x' = .next t' ∧ b.Confined c t t'

section

variable {x x' y y' : Result}

theorem nextConfined_next (h : b.Confined c s s') : NextConfined c b (.next s) (.next s') := by
  rintro t ⟨⟩
  exact ⟨s', rfl, h⟩

theorem nextConfined_fault (f : Fault) : NextConfined c b (.fault f) x := fun _ ht => nomatch ht

theorem nextConfined_refused (f : Refusal) : NextConfined c b (.refused f) x := fun _ ht => nomatch ht

theorem nextConfined_ite {p p' : Prop} [Decidable p] [Decidable p'] (hp : p' ↔ p) (hthen : p → NextConfined c b x x')
    (helse : ¬ p → NextConfined c b y y') : NextConfined c b (if p then x else y) (if p' then x' else y') := by
  by_cases h : p
  · rw [if_pos h, if_pos (hp.mpr h)]
    exact hthen h
  · rw [if_neg h, if_neg (mt hp.mp h)]
    exact helse h

theorem NextConfined.rebase (h : NextConfined c b x x') (hb : b'.SameUnits b) : NextConfined c b' x x' := by
  intro t ht
  obtain ⟨t', ht', hconf⟩ := h t ht
  exact ⟨t', ht', hconf.rebase hb⟩

end

/-! ### Ring buffers -/

theorem takeRing_confined (h : s'.Confined s.cfg s s') (hi : s.Inv) :
    s'.Confined s.cfg (takeRing r n s) (takeRing r n s') := by
  have hr := h.ring r
  have hk : ringTakeCount (s.ring r) n ≤ (s.ring r).cnt := Nat.min_le_right ..
  have hcount : ringTakeCount (s'.ring r) n = ringTakeCount (s.ring r) n := by rw [ringTakeCount, hr.cnt_eq]; rfl
  unfold takeRing
  simp only [h.cfg_eq, hcount, hr.front_eq (hi.ring_inv r) hk]
  exact (h.setRing (hr.drop _)).respond _ _ rfl rfl

theorem pushRing_nextConfined (h : s'.Confined s.cfg s s') (hi : s.Inv) :
    NextConfined s.cfg s' (pushRing r n s) (pushRing r n s') := by
  have hr := h.ring r
  unfold pushRing payloadOf ringAvail
  rw [h.cfg_eq, h.port_eq, hr.cnt_eq]
  refine nextConfined_ite Iff.rfl (fun _ => nextConfined_next (h.raiseError _)) fun hfit => ?_
  by_cases hlen : s.port.din.length = n
  · rw [if_pos hlen]
    exact nextConfined_next ((h.setRing (hr.append (hi.ring_inv r) (by omega))).answer rfl)
  · rw [if_neg hlen]
    exact nextConfined_refused _

theorem popnRing_nextConfined (h : s'.Confined s.cfg s s') (hi : s.Inv) :
    NextConfined s.cfg s' (popnRing r n s) (popnRing r n s') :=
  nextConfined_ite (by rw [h.cfg_eq]) (fun _ => nextConfined_next (takeRing_confined h hi))
    fun _ => nextConfined_next (h.raiseError _)

theorem clearRing_nextConfined (h : s'.Confined s.cfg s s') : NextConfined s.cfg s' (clearRing r s) (clearRing r s') :=
  nextConfined_next (h.setRing .atReset).acknowledge

/-- A command that changes no unit and answers with what both states agree on. -/
theorem answer_nextConfined (h : s'.Confined c s s') {val val' : Half} (hval : val' = val) :
    NextConfined c s' (.next (answer s val)) (.next (answer s' val')) := nextConfined_next (h.answer hval)

/-! ### Link transfers -/

theorem linkStatus_eq_of_confined {l l₀ l' : Link} (h : l₀.Confined c l l') : linkStatus l' = linkStatus l := by
  rw [linkStatus, h.ff_eq, h.xs_eq, linkStatus]

/-- LTX.START reads RBT below C and writes the buffer below N. -/
theorem startTx_nextConfined (h : s'.Confined s.cfg s s') (hi : s.Inv) :
    NextConfined s.cfg s' (startTx n s) (startTx n s') := by
  obtain ⟨hcnt, hbuf⟩ := txCount_le (s := s) (n := n)
  have hcount : txCount s' n = txCount s n := by simp only [txCount, ringTakeCount, h.cfg_eq, h.rbt.cnt_eq]
  have hfront := h.rbt.front_eq (hi.ring_inv .rbt) hcnt
  refine nextConfined_ite (by rw [h.ltx.xs_eq]) (fun _ => nextConfined_next (h.raiseError _)) fun _ => ?_
  refine nextConfined_ite (by rw [h.cfg_eq, h.rbt.cnt_eq]) (fun _ => nextConfined_next (h.raiseError _)) fun _ => ?_
  simp only [txLoaded, hcount, h.cfg_eq, h.port_eq, hfront]
  have hload := h.ltx.load s.port.startOk (data := ringFront s.cfg s.rbt (txCount s n)) (by simpa using hbuf)
  exact nextConfined_next (((h.setRing (r := .rbt) (h.rbt.drop _)).setLink (d := .tx) (hload _)).respondStart _ rfl)

theorem doneTx_nextConfined (h : s'.Confined c s s') : NextConfined c s' (doneTx s) (doneTx s') :=
  nextConfined_ite (by rw [h.ltx.xs_eq])
    (fun _ => nextConfined_next
      ((h.setLink (d := .tx) (h.ltx.update (fun l => { l with xs := .idle, rc := 0 }) fun _ _ => rfl)).answer rfl))
    fun _ => nextConfined_next (h.answer rfl)

/-- A start or a restart puts the tag and the counts only. -/
theorem startLink_hbBlind (ok : Bool) (l : Link) (m : Memory) :
    startLink ok { l with hb := m } = { startLink ok l with hb := m } := by
  cases ok <;> rfl

theorem faultLink_nextConfined (h : s'.Confined s.cfg s s') :
    NextConfined s.cfg s' (faultLink d s) (faultLink d s') := by
  have hl := h.link d
  refine nextConfined_ite (by rw [hl.xs_eq]) (fun _ => nextConfined_next (h.answer rfl)) fun _ => ?_
  refine nextConfined_ite (by rw [hl.rc_eq, h.cfg_eq]) (fun _ => ?_) fun _ => ?_
  · rw [h.port_eq]
    have hrestart := hl.update (fun l => restartLink s.port.startOk { l with ff := false, rc := l.rc + 1 })
      fun l => startLink_hbBlind _ { l with ff := false, rc := l.rc + 1, rem := l.tl }
    exact nextConfined_next ((h.setLink hrestart).respondStart _ (by rw [hl.rc_eq]))
  · have hidle := hl.update (fun l => { l with ff := false, rc := 0, xs := .idle }) fun _ _ => rfl
    exact nextConfined_next ((h.setLink hidle).raiseError _)

theorem startRx_nextConfined (h : s'.Confined s.cfg s s') : NextConfined s.cfg s' (startRx s) (startRx s') := by
  refine nextConfined_ite (by rw [h.lrx.xs_eq]) (fun _ => nextConfined_next (h.raiseError _)) fun _ => ?_
  rw [h.cfg_eq, h.port_eq]
  have hstart := h.lrx.update (fun l => startLink s.port.startOk { l with tl := s.cfg.bufSize, rem := s.cfg.bufSize })
    fun l => startLink_hbBlind _ { l with tl := s.cfg.bufSize, rem := s.cfg.bufSize }
  exact nextConfined_next ((h.setLink (d := .rx) hstart).respondStart _ rfl)

/-- LRX.READ reads the buffer below N and writes RBR below C. -/
theorem harvestRx_nextConfined (h : s'.Confined s.cfg s s') (hi : s.Inv) :
    NextConfined s.cfg s' (harvestRx s) (harvestRx s') := by
  have hcount : rxCount s' = rxCount s := by rw [rxCount, h.cfg_eq, h.lrx.rem_eq, rxCount]
  have hread : Memory.readRun s'.lrx.hb 0 (rxCount s) = Memory.readRun s.lrx.hb 0 (rxCount s) :=
    h.lrx.cells.readRun_eq (by rw [rxCount]; omega)
  unfold harvestRx ringAvail
  simp only [hcount, hread, h.cfg_eq, h.rbr.cnt_eq]
  refine nextConfined_ite Iff.rfl (fun _ => nextConfined_next (h.raiseError _)) fun hfit => ?_
  have hring := h.rbr.append (data := Memory.readRun s.lrx.hb 0 (rxCount s)) (hi.ring_inv .rbr)
    (by rw [Memory.readRun_length]; exact not_lt.mp hfit)
  have hlink := h.lrx.update (fun l => { l with xs := .idle, rc := 0 }) fun _ _ => rfl
  exact nextConfined_next (((h.setRing (r := .rbr) hring).setLink (d := .rx) hlink).answer rfl)

theorem readRx_nextConfined (h : s'.Confined s.cfg s s') (hi : s.Inv) :
    NextConfined s.cfg s' (readRx s) (readRx s') := by
  unfold readRx
  rw [h.lrx.xs_eq]
  split
  · exact nextConfined_next (h.raiseError _)
  · exact nextConfined_next (h.answer rfl)
  · exact harvestRx_nextConfined h hi
  · exact harvestRx_nextConfined h hi

/-! ### Fault queue, encoder and annunciator -/

theorem enqueueCode_nextConfined (h : s'.Confined c s s') (code : Half) :
    NextConfined c s' (enqueueCode code s) (enqueueCode code s') :=
  nextConfined_ite (by rw [h.fq_eq, h.cfg_eq])
    (fun _ => nextConfined_next (h.setFq (by rw [h.fq_eq])).acknowledge)
    fun _ => nextConfined_next (h.raiseError _)

theorem dequeueCode_nextConfined (h : s'.Confined c s s') : NextConfined c s' (dequeueCode s) (dequeueCode s') := by
  unfold dequeueCode
  rw [h.fq_eq]
  split
  · exact nextConfined_next h.acknowledge
  · exact nextConfined_next ((h.setFq rfl).answer rfl)

theorem execEncEncode_nextConfined (h : s'.Confined c s s') (v : Half) :
    NextConfined c s' (execEncEncode v s) (execEncEncode v s') := by
  unfold execEncEncode
  rw [h.cfg_eq]
  split
  · exact nextConfined_next (h.respond _ _ rfl rfl)
  · exact nextConfined_next (h.raiseError _)

theorem respondTick_nextConfined (h : b.Confined c s s') : NextConfined c b (respondTick s) (respondTick s') :=
  nextConfined_next (h.answer (by rw [annStatus, h.ann.led_eq, h.ann.st_eq, annStatus]))

/-- Branch LOAD writes the sequence store below SEQMAX. -/
theorem tickLoad_nextConfined (h : s'.Confined s.cfg s s') : NextConfined s.cfg s' (tickLoad s) (tickLoad s') := by
  unfold tickLoad
  rw [h.fq_eq]
  split
  · exact respondTick_nextConfined h
  next code q _ =>
    rw [show encodeCode s'.cfg code = encodeCode s.cfg code by rw [h.cfg_eq]]
    have htaken : s'.Confined s.cfg { s with fq := q } { s' with fq := q } := h.setFq rfl
    split
    next syms henc =>
      exact respondTick_nextConfined (htaken.setAnn (h.ann.load (encodeCode_length_le henc)))
    · exact nextConfined_next (htaken.raiseError _)

/-- A branch that reads the current symbol reads it below SEQMAX. -/
theorem tickSymbol_nextConfined (h : s'.Confined s.cfg s s') {f : Annunciator → Symbol → Annunciator}
    (hf : SeqBlind f) : NextConfined s.cfg s' (tickSymbol f s) (tickSymbol f s') := by
  refine nextConfined_ite (by rw [h.ann.idx_eq, h.cfg_eq]) (fun hidx => ?_) fun _ => nextConfined_fault _
  rw [h.ann.idx_eq, h.ann.cells.read_eq _ hidx]
  exact respondTick_nextConfined (h.setAnn (h.ann.update hf _))

theorem execAnnTick_nextConfined (h : s'.Confined s.cfg s s') :
    NextConfined s.cfg s' (execAnnTick s) (execAnnTick s') := by
  refine nextConfined_ite (by rw [h.port_eq, h.ann.tlast_eq]) (fun _ => nextConfined_refused _) fun _ => ?_
  unfold tickBranch
  rw [h.ann.st_eq, h.ann.loaded_eq, h.ann.slen_eq, h.ann.idx_eq, h.port_eq, h.cfg_eq]
  split
  · split
    · exact tickLoad_nextConfined h
    split
    · exact respondTick_nextConfined (h.setAnn (h.ann.update discardSeq_seqBlind .dot))
    · exact tickSymbol_nextConfined h (startSymbol_seqBlind _)
  · exact tickSymbol_nextConfined h (signalSymbol_seqBlind _ _)
  · exact tickSymbol_nextConfined h (pauseSymbol_seqBlind _ _)

/-! ### Every command -/

theorem exec_nextConfined (i : Instr) (h : s'.Confined s.cfg s s') (hi : s.Inv) :
    NextConfined s.cfg s' (exec i s) (exec i s') := by
  cases i with
  | rbtPush | rbrPush => exact pushRing_nextConfined h hi
  | rbtPop | rbrPop => exact nextConfined_next (takeRing_confined h hi)
  | rbtPopn | rbrPopn => exact popnRing_nextConfined h hi
  | rbtClear | rbrClear => exact clearRing_nextConfined h
  | rbtLen => exact answer_nextConfined h (by rw [(h.ring _).cnt_eq])
  | rbrLen => exact answer_nextConfined h (by rw [(h.ring _).cnt_eq])
  | rbtIsempty => exact answer_nextConfined h (by rw [ringEmpty, (h.ring _).cnt_eq]; rfl)
  | rbrIsempty => exact answer_nextConfined h (by rw [ringEmpty, (h.ring _).cnt_eq]; rfl)
  | rbtAvail => exact answer_nextConfined h (by rw [ringAvail, (h.ring _).cnt_eq, h.cfg_eq]; rfl)
  | rbrAvail => exact answer_nextConfined h (by rw [ringAvail, (h.ring _).cnt_eq, h.cfg_eq]; rfl)
  | rbtCap | rbrCap => exact answer_nextConfined h (by rw [h.cfg_eq])
  | rbtIsfull => exact answer_nextConfined h (by rw [ringFull, (h.ring _).cnt_eq, h.cfg_eq]; rfl)
  | rbrIsfull => exact answer_nextConfined h (by rw [ringFull, (h.ring _).cnt_eq, h.cfg_eq]; rfl)
  | ltxStart => exact startTx_nextConfined h hi
  | ltxDone => exact doneTx_nextConfined h
  | ltxFault | lrxFault => exact faultLink_nextConfined h
  | ltxStatus | lrxStatus => exact answer_nextConfined h (linkStatus_eq_of_confined (h.link _))
  | ltxRetries | lrxRetries => exact answer_nextConfined h (by rw [(h.link _).rc_eq])
  | lrxStart => exact startRx_nextConfined h
  | lrxRead => exact readRx_nextConfined h hi
  | lrxIdle => exact answer_nextConfined h (by rw [h.port_eq])
  | fqEnq code => exact enqueueCode_nextConfined h code
  | fqDeq => exact dequeueCode_nextConfined h
  | encEncode v => exact execEncEncode_nextConfined h v
  | annTick => exact execAnnTick_nextConfined h

theorem runTransaction_nextConfined (h : s'.Confined s.cfg s s') (hi : s.Inv) (x : Transaction) :
    NextConfined s.cfg s' (runTransaction x s) (runTransaction x s') := by
  have hport : s'.Confined s.cfg { s with port := x.port } { s' with port := x.port } := h.setPort rfl
  unfold runTransaction
  split
  · exact (exec_nextConfined _ (hport.self ⟨rfl, rfl, rfl, rfl, rfl, rfl⟩) (setPort_inv hi _)).rebase
      ⟨rfl, rfl, rfl, rfl, rfl, rfl⟩
  · exact nextConfined_next (hport.raiseError _)

/-! ### Engine moves and pseudo-operations -/

theorem moveRxByte_nextConfined (h : s'.Confined s.cfg s s') (v : Byte) :
    NextConfined s.cfg s' (moveRxByte v s) (moveRxByte v s') := by
  refine nextConfined_ite (by rw [h.lrx.xs_eq, h.lrx.rem_eq]) (fun _ => ?_) fun _ => nextConfined_refused _
  refine nextConfined_ite (by rw [h.lrx.rem_eq, h.cfg_eq]) (fun hin => ?_) fun _ => nextConfined_fault _
  rw [h.cfg_eq]
  exact nextConfined_next (h.setLink (d := .rx) (h.lrx.stored hin v))

theorem moveTxByte_nextConfined (h : s'.Confined s.cfg s s') :
    NextConfined s.cfg s' (moveTxByte s) (moveTxByte s') := by
  refine nextConfined_ite (by rw [h.ltx.xs_eq, h.ltx.rem_eq]) (fun _ => ?_) fun _ => nextConfined_refused _
  refine nextConfined_ite (by rw [h.ltx.tl_eq, h.ltx.rem_eq, h.cfg_eq]) (fun hin => ?_) fun _ => nextConfined_fault _
  have hsent := h.ltx.update (fun l => { l with rem := l.rem - 1 }) fun _ _ => rfl
  refine nextConfined_next ((h.setLink (d := .tx) hsent).emitWire ?_)
  rw [h.ltx.tl_eq, h.ltx.rem_eq]
  exact h.ltx.cells.read_eq _ hin

theorem moveComplete_nextConfined (h : s'.Confined c s s') : NextConfined c s' (moveComplete d s) (moveComplete d s') :=
  nextConfined_ite (by rw [(h.link d).xs_eq, (h.link d).rem_eq])
    (fun _ => nextConfined_next
      (h.setLink ((h.link d).update (fun l => { l with xs := .complete }) fun _ _ => rfl)))
    fun _ => nextConfined_refused _

theorem moveFault_nextConfined (h : s'.Confined c s s') : NextConfined c s' (moveFault d s) (moveFault d s') :=
  nextConfined_ite (by rw [(h.link d).xs_eq])
    (fun _ => nextConfined_next
      (h.setLink ((h.link d).update (fun l => { l with xs := .error, ff := true }) fun _ _ => rfl)))
    fun _ => nextConfined_refused _

theorem issue_nextConfined (h : s'.Confined s.cfg s s') (hi : s.Inv) (i : Instr) (din : List Byte) :
    NextConfined s.cfg s' (issue i din s) (issue i din s') := by
  have hport : s'.Confined s.cfg { s with port := { s.port with din := din } }
      { s' with port := { s'.port with din := din } } := h.setPort (by rw [h.port_eq])
  exact (exec_nextConfined i (hport.self ⟨rfl, rfl, rfl, rfl, rfl, rfl⟩) (setPort_inv hi _)).rebase
    ⟨rfl, rfl, rfl, rfl, rfl, rfl⟩

theorem issuePush_nextConfined (h : s'.Confined s.cfg s s') (hi : s.Inv) (i : Instr) (data : List Byte) :
    NextConfined s.cfg s' (issuePush i data n s) (issuePush i data n s') := by
  have hissue := issue_nextConfined h hi i data
  unfold issuePush
  cases hx : issue i data s with
  | next s1 =>
    obtain ⟨s1', hx', h1⟩ := hissue s1 hx
    rw [hx']
    dsimp only
    rw [h1.out_eq]
    split
    · split <;> exact nextConfined_next (h1.returnBridge _)
    · exact nextConfined_next h1
  | fault f => exact nextConfined_fault f
  | refused f => exact nextConfined_refused f

theorem hostIn_nextConfined (h : s'.Confined s.cfg s s') (hi : s.Inv) (enumerated : Bool)
    (inbound : Option (List Byte)) :
    NextConfined s.cfg s' (hostIn enumerated inbound s) (hostIn enumerated inbound s') := by
  refine nextConfined_ite Iff.rfl (fun _ => nextConfined_next (h.returnBridge _)) fun _ => ?_
  split
  · exact nextConfined_next (h.returnBridge _)
  · exact nextConfined_ite (by rw [h.cfg_eq]) (fun _ => issuePush_nextConfined h hi _ _)
      fun _ => nextConfined_refused _

theorem hostOutPop_nextConfined (h : s'.Confined s.cfg s s') (hi : s.Inv) :
    NextConfined s.cfg s' (hostOutPop s) (hostOutPop s') := by
  have hissue := issue_nextConfined h hi (.rbrPop (natValue s.cfg.pktSize)) []
  unfold hostOutPop
  rw [h.staging_eq, h.cfg_eq]
  split
  · cases hx : issue (.rbrPop (natValue s.cfg.pktSize)) [] s with
    | next s1 =>
      obtain ⟨s1', hx', h1⟩ := hissue s1 hx
      rw [hx']
      dsimp only
      rw [show s1'.out.resp = s1.out.resp by rw [h1.out_eq]]
      split
      · split
        · exact nextConfined_next (h1.returnBridge _)
        · exact nextConfined_next (h1.setStaging _)
      · exact nextConfined_next h1
    | fault f => exact nextConfined_fault f
    | refused f => exact nextConfined_refused f
  · exact nextConfined_refused _
  · exact nextConfined_refused _

theorem hostOutWrite_nextConfined (h : s'.Confined c s s') (k : Nat) :
    NextConfined c s' (hostOutWrite k s) (hostOutWrite k s') := by
  have hstaging := h.staging_eq
  unfold hostOutWrite
  cases hs : s.staging with
  | staged data =>
    rw [hstaging.trans hs]
    refine nextConfined_ite Iff.rfl (fun _ => ?_) fun _ => nextConfined_refused _
    have htook : s'.Confined c { s with out := { s.out with toHost := data.take k } }
        { s' with out := { s'.out with toHost := data.take k } } := h.setOut (by rw [h.out_eq])
    exact nextConfined_ite Iff.rfl (fun _ => nextConfined_next (htook.setStaging _))
      fun _ => nextConfined_next ((htook.setStaging _).returnBridge _)
  | idle => exact nextConfined_refused _
  | taken => exact nextConfined_refused _

theorem hostOutRequeue_nextConfined (h : s'.Confined s.cfg s s') (hi : s.Inv) :
    NextConfined s.cfg s' (hostOutRequeue s) (hostOutRequeue s') := by
  unfold hostOutRequeue
  rw [h.staging_eq]
  split
  · exact (issuePush_nextConfined ((h.setStaging .idle).self ⟨rfl, rfl, rfl, rfl, rfl, rfl⟩)
      (setStaging_inv hi (Nat.zero_le _)) _ _).rebase ⟨rfl, rfl, rfl, rfl, rfl, rfl⟩
  · exact nextConfined_refused _
  · exact nextConfined_refused _

/-! ### Every event -/

theorem runEvent_nextConfined (e : Event) (h : s'.Confined s.cfg s s') (hi : s.Inv) :
    NextConfined s.cfg s' (runEvent e s) (runEvent e s') := by
  cases e with
  | command x => exact runTransaction_nextConfined h hi x
  | engRxByte v => exact moveRxByte_nextConfined h v
  | engTxByte => exact moveTxByte_nextConfined h
  | engComplete d => exact moveComplete_nextConfined h
  | engFault d => exact moveFault_nextConfined h
  | blockReset => exact nextConfined_next h.blockReset
  | hbIn enumerated inbound => exact hostIn_nextConfined h hi enumerated inbound
  | hbOut => exact hostOutPop_nextConfined h hi
  | hbOutWrite k => exact hostOutWrite_nextConfined h k
  | hbOutRequeue => exact hostOutRequeue_nextConfined h hi
  | dispatch f => exact issue_nextConfined h hi (.fqEnq _) []

theorem step_nextConfined (h : s'.Confined s.cfg s s') (hi : s.Inv) : NextConfined s.cfg s' (step s) (step s') := by
  unfold step
  rw [h.agenda_eq]
  split
  · exact nextConfined_next h
  next rest _ =>
    exact (runEvent_nextConfined _ ((h.begin rest).self ⟨rfl, rfl, rfl, rfl, rfl, rfl⟩) (begin_inv hi rest)).rebase
      ⟨rfl, rfl, rfl, rfl, rfl, rfl⟩

end Sys2Proof.Machine

namespace Sys2Proof.Claims

open Sys2Proof.Machine

section

variable {c : Config} {b s s' t t' : State}

/-- Before the step nothing above the sizes has changed. -/
theorem confined_of_alikeInside (hi : s.Inv) (h : AlikeInside s s') : s'.Confined s.cfg s s' := by
  obtain ⟨-, -, -, -, hwft, -⟩ := hi.ring_inv .rbt
  obtain ⟨-, -, -, -, hwfr, -⟩ := hi.ring_inv .rbr
  obtain ⟨-, -, -, -, -, hwftx, -⟩ := hi.link_inv .tx
  obtain ⟨-, -, -, -, -, hwfrx, -⟩ := hi.link_inv .rx
  obtain ⟨-, -, -, -, -, -, hwfseq, -⟩ := hi.ann_inv
  obtain ⟨⟨hrbt', hrbt⟩, ⟨hrbr', hrbr⟩, ⟨hltx', hltx⟩, ⟨hlrx', hlrx⟩, ⟨hann', hann⟩, hrest⟩ := h
  exact
    { cfg := rfl
      rbt := ⟨⟨hwft, hrbt', hrbt⟩, .inr .refl, congrArg State.rbt hrest⟩
      rbr := ⟨⟨hwfr, hrbr', hrbr⟩, .inr .refl, congrArg State.rbr hrest⟩
      ltx := ⟨⟨hwftx, hltx', hltx⟩, .inr .refl, congrArg State.ltx hrest⟩
      lrx := ⟨⟨hwfrx, hlrx', hlrx⟩, .inr .refl, congrArg State.lrx hrest⟩
      ann := ⟨⟨hwfseq, hann', hann⟩, .inr .refl, congrArg State.ann hrest⟩
      rest := hrest.trans (by rw [hrest]) }

theorem alikeInside_of_confined (h : b.Confined c t t') : AlikeInside t t' := by
  obtain ⟨rfl, hrbt, hrbr, hltx, hlrx, hann, hrest⟩ := h
  refine ⟨⟨hrbt.cells.wf', hrbt.cells.read_eq⟩, ⟨hrbr.cells.wf', hrbr.cells.read_eq⟩,
    ⟨hltx.cells.wf', hltx.cells.read_eq⟩, ⟨hlrx.cells.wf', hlrx.cells.read_eq⟩,
    ⟨hann.cells.wf', hann.cells.read_eq⟩, ?_⟩
  rw [← hrbt.rest, ← hrbr.rest, ← hltx.rest, ← hlrx.rest, ← hann.rest]
  exact hrest

end

/-- Settles O55: the two states are confined before the step, and every step keeps them so. -/
theorem storagesAreUsedWithinTheirSize : Obligations.StoragesAreUsedWithinTheirSize := by
  unfold Obligations.StoragesAreUsedWithinTheirSize
  intro s s' t hi halike ht
  obtain ⟨t', ht', hconf⟩ := step_nextConfined (confined_of_alikeInside hi halike) hi t ht
  exact ⟨t', ht', alikeInside_of_confined hconf, fun r => (hconf.ring r).above, fun d => (hconf.link d).above,
    hconf.ann.above⟩

end Sys2Proof.Claims

/-! The decoder by its checks (30_encoding.md R109): the format that UNIT and OP name, what each check answers, and that
a word decodes to a command exactly when it is the command's own word (R101, R108). -/

namespace Sys2Proof

variable {cw : Word} {u o : BitVec 4} {arg : Half} {i : Instr} {fa : Bool}

/-! ### The fields of a command word -/

@[simp] theorem cwUnit_packWord : cwUnit (packWord u o arg) = u := (packWord_fields u o arg).1

@[simp] theorem cwOp_packWord : cwOp (packWord u o arg) = o := (packWord_fields u o arg).2.1

@[simp] theorem cwRsv_packWord : cwRsv (packWord u o arg) = 0 := (packWord_fields u o arg).2.2.1

@[simp] theorem cwArg_packWord : cwArg (packWord u o arg) = arg := (packWord_fields u o arg).2.2.2

/-- A word is its four fields, side by side (R101). -/
theorem fields_append (cw : Word) : cwUnit cw ++ cwOp cw ++ cwRsv cw ++ cwArg cw = cw := by
  apply BitVec.eq_of_getLsbD_eq
  intro j hj
  simp only [cwUnit, cwOp, cwRsv, cwArg, BitVec.getLsbD_append, BitVec.getLsbD_extractLsb']
  grind

theorem packWord_fields_eq (hrsv : cwRsv cw = 0) : packWord (cwUnit cw) (cwOp cw) (cwArg cw) = cw := by
  rw [packWord, ← hrsv, fields_append]

/-! ### UNIT and OP -/

/-- The format that UNIT and OP name: `some true` for FA, `some false` for FZ, `none` where OP is not listed. -/
def formatOf (unit op : Nat) : Option Bool := (commandOf unit op 0).map Prod.snd

/-- ARG does not bear on the format. -/
theorem commandOf_map_snd (unit op : Nat) (arg : Half) : (commandOf unit op arg).map Prod.snd = formatOf unit op := by
  unfold formatOf commandOf
  split <;> rfl

theorem formatOf_eq_some_iff {unit op : Nat} :
    formatOf unit op = some fa ↔ ∃ i, commandOf unit op arg = some (i, fa) := by
  simp [← commandOf_map_snd unit op arg]

theorem formatOf_eq_none_iff {unit op : Nat} : formatOf unit op = none ↔ commandOf unit op arg = none := by
  simp [← commandOf_map_snd unit op arg]

/-! ### A command and its word -/

/-- The word of a command that UNIT, OP and ARG name: in format FZ its ARG is zero (R102, R108). -/
theorem encode_of_commandOf {unit op : Nat} (h : commandOf unit op arg = some (i, fa)) (harg : fa = false → arg = 0) :
    encode i = packWord (BitVec.ofNat 4 unit) (BitVec.ofNat 4 op) arg := by
  unfold commandOf at h
  cases fa with
  | true => split at h <;> cases h <;> rfl
  | false =>
    rw [harg rfl]
    split at h <;> cases h <;> rfl

/-- The fields of a command's word name the command (R101, R108). -/
theorem commandOf_encode (i : Instr) : ∃ fa,
    commandOf (cwUnit (encode i)).toNat (cwOp (encode i)).toNat (cwArg (encode i)) = some (i, fa) ∧
    (fa = false → cwArg (encode i) = 0) ∧ cwRsv (encode i) = 0 := by
  cases i <;> simp [encode, commandOf]

/-- UNIT is outside 1 to 7 (check (2)). -/
abbrev UnitReserved (unit : Nat) : Prop := unit = 0 ∨ 7 < unit

theorem unit_of_commandOf {unit op : Nat} (h : commandOf unit op arg = some (i, fa)) : ¬ UnitReserved unit := by
  unfold commandOf at h
  split at h <;> cases h <;> decide

/-! ### The checks of R109 -/

/-- Everything the decoder can answer: its checks in their order, then the command. -/
theorem decode_cases (cw : Word) :
    (cwRsv cw ≠ 0 ∧ decode cw = .error .reservedField) ∨
    (cwRsv cw = 0 ∧ UnitReserved (cwUnit cw).toNat ∧ decode cw = .error .reservedUnit) ∨
    (cwRsv cw = 0 ∧ ¬ UnitReserved (cwUnit cw).toNat ∧ formatOf (cwUnit cw).toNat (cwOp cw).toNat = none ∧
      decode cw = .error .reservedOp) ∨
    (cwRsv cw = 0 ∧ ¬ UnitReserved (cwUnit cw).toNat ∧ formatOf (cwUnit cw).toNat (cwOp cw).toNat = some false ∧
      cwArg cw ≠ 0 ∧ decode cw = .error .argNotZero) ∨
    (cwRsv cw = 0 ∧ ¬ UnitReserved (cwUnit cw).toNat ∧ ∃ i fa,
      commandOf (cwUnit cw).toNat (cwOp cw).toNat (cwArg cw) = some (i, fa) ∧ (fa = false → cwArg cw = 0) ∧
      decode cw = .ok i) := by
  by_cases hrsv : cwRsv cw = 0
  case neg => exact .inl ⟨hrsv, if_pos hrsv⟩
  refine .inr ?_
  by_cases hunit : UnitReserved (cwUnit cw).toNat
  · exact .inl ⟨hrsv, hunit, by simp [decode, hrsv, hunit]⟩
  refine .inr ?_
  cases hcmd : commandOf (cwUnit cw).toNat (cwOp cw).toNat (cwArg cw) with
  | none => exact .inl ⟨hrsv, hunit, formatOf_eq_none_iff.mpr hcmd, by simp [decode, hrsv, hunit, hcmd]⟩
  | some p =>
    obtain ⟨i, fa⟩ := p
    by_cases harg : fa = false ∧ cwArg cw ≠ 0
    · obtain ⟨rfl, hne⟩ := harg
      exact .inr (.inl ⟨hrsv, hunit, formatOf_eq_some_iff.mpr ⟨i, hcmd⟩, hne,
        by simpa [decode, hrsv, hunit, hcmd] using hne⟩)
    · exact .inr (.inr ⟨hrsv, hunit, i, fa, rfl, by simpa using harg,
        by simpa [decode, hrsv, hunit, hcmd] using harg⟩)

theorem decode_eq_reservedField_iff : decode cw = .error .reservedField ↔ cwRsv cw ≠ 0 := by
  have hcases := decode_cases cw
  grind

theorem decode_eq_reservedUnit_iff :
    decode cw = .error .reservedUnit ↔ cwRsv cw = 0 ∧ UnitReserved (cwUnit cw).toNat := by
  have hcases := decode_cases cw
  grind

theorem decode_eq_reservedOp_iff : decode cw = .error .reservedOp ↔
    cwRsv cw = 0 ∧ ¬ UnitReserved (cwUnit cw).toNat ∧ formatOf (cwUnit cw).toNat (cwOp cw).toNat = none := by
  have hcases := decode_cases cw
  have hformat := formatOf_eq_none_iff (unit := (cwUnit cw).toNat) (op := (cwOp cw).toNat) (arg := cwArg cw)
  grind

theorem decode_eq_argNotZero_iff : decode cw = .error .argNotZero ↔
    cwRsv cw = 0 ∧ ¬ UnitReserved (cwUnit cw).toNat ∧ formatOf (cwUnit cw).toNat (cwOp cw).toNat = some false ∧
      cwArg cw ≠ 0 := by
  have hcases := decode_cases cw
  have hformat := commandOf_map_snd (cwUnit cw).toNat (cwOp cw).toNat (cwArg cw)
  grind

/-- A word decodes to the command its fields name, where nothing that must be zero is not. -/
theorem decode_eq_ok_iff : decode cw = .ok i ↔
    cwRsv cw = 0 ∧ ∃ fa, commandOf (cwUnit cw).toNat (cwOp cw).toNat (cwArg cw) = some (i, fa) ∧
      (fa = false → cwArg cw = 0) := by
  constructor
  · intro h
    rcases decode_cases cw with ⟨-, e⟩ | ⟨-, -, e⟩ | ⟨-, -, -, e⟩ | ⟨-, -, -, -, e⟩ |
      ⟨hrsv, -, _, fa, hcmd, harg, e⟩ <;> cases e.symm.trans h
    exact ⟨hrsv, fa, hcmd, harg⟩
  · rintro ⟨hrsv, fa, hcmd, harg⟩
    have hunit := unit_of_commandOf hcmd
    simpa [decode, hrsv, hunit, hcmd] using harg

theorem decode_encode (i : Instr) : decode (encode i) = .ok i := by
  obtain ⟨fa, hcmd, harg, hrsv⟩ := commandOf_encode i
  exact decode_eq_ok_iff.mpr ⟨hrsv, fa, hcmd, harg⟩

theorem encode_of_decode (h : decode cw = .ok i) : encode i = cw := by
  obtain ⟨hrsv, fa, hcmd, harg⟩ := decode_eq_ok_iff.mp h
  calc encode i
    _ = packWord (BitVec.ofNat 4 (cwUnit cw).toNat) (BitVec.ofNat 4 (cwOp cw).toNat) (cwArg cw) :=
      encode_of_commandOf hcmd harg
    _ = cw := by rw [BitVec.ofNat_toNat, BitVec.ofNat_toNat, BitVec.setWidth_eq, BitVec.setWidth_eq,
      packWord_fields_eq hrsv]

/-- A command decodes from its own word and from no other. -/
theorem decode_eq_ok_iff_encode : decode cw = .ok i ↔ cw = encode i :=
  ⟨fun h => (encode_of_decode h).symm, fun h => h ▸ decode_encode i⟩

/-! ### The reserved spaces of R110 -/

/-- The OPs that R110 reserves in each UNIT. -/
abbrev OpReserved (unit op : Nat) : Prop :=
  ((unit = 1 ∨ unit = 2) ∧ 9 ≤ op) ∨ (unit = 3 ∧ 5 ≤ op) ∨ (unit = 4 ∧ 6 ≤ op) ∨ (unit = 5 ∧ 2 ≤ op) ∨
    ((unit = 6 ∨ unit = 7) ∧ 1 ≤ op)

/-- The UNITs and OPs of the commands of format FA (R108). -/
abbrev TakesArg (unit op : Nat) : Prop :=
  ((unit = 1 ∨ unit = 2) ∧ op ≤ 2) ∨ ((unit = 3 ∨ unit = 5 ∨ unit = 6) ∧ op = 0)

theorem formatOf_eq_none_iff_reserved (u o : BitVec 4) :
    formatOf u.toNat o.toNat = none ↔ UnitReserved u.toNat ∨ OpReserved u.toNat o.toNat := by
  decide +revert

theorem formatOf_eq_some_false_iff (u o : BitVec 4) :
    formatOf u.toNat o.toNat = some false ↔
      ¬ UnitReserved u.toNat ∧ ¬ OpReserved u.toNat o.toNat ∧ ¬ TakesArg u.toNat o.toNat := by
  decide +revert

/-! ### The rows of R108 -/

/-- A row's mask leaves out ARG exactly in format FA, and its word has every other field in place. -/
theorem commandTable_row {r : CommandRow} (hr : r ∈ commandTable) :
    formatOf (cwUnit r.mat).toNat (cwOp r.mat).toNat = some (r.mask == 0xFFFF0000#32) ∧
    (r.mask = 0xFFFF0000#32 ∨ r.mask = 0xFFFFFFFF#32) ∧ r.mat &&& 0xFFFF0000#32 = r.mat ∧
    cwRsv r.mat = 0 ∧ cwArg r.mat = 0 := by
  revert r
  decide

theorem commandTable_mat_nodup : (commandTable.map CommandRow.mat).Nodup := by decide

/-- Above ARG every row fixes the whole word. -/
theorem and_fields_of_matches {r : CommandRow} (hr : r ∈ commandTable) (h : r.matches cw = true) :
    cw &&& 0xFFFF0000#32 = r.mat := by
  obtain ⟨-, hmask, hmat, -⟩ := commandTable_row hr
  rw [CommandRow.matches, beq_iff_eq] at h
  rcases hmask with hmask | hmask <;> rw [hmask] at h
  · exact h
  · rw [← hmat, ← h]
    exact congrArg (· &&& 0xFFFF0000#32) (BitVec.and_allOnes).symm

theorem row_eq_of_matches {r r' : CommandRow} (hr : r ∈ commandTable) (hr' : r' ∈ commandTable)
    (h : r.matches cw = true) (h' : r'.matches cw = true) : r = r' :=
  List.inj_on_of_nodup_map commandTable_mat_nodup hr hr'
    ((and_fields_of_matches hr h).symm.trans (and_fields_of_matches hr' h'))

@[simp] theorem cwUnit_and_mask : cwUnit (cw &&& 0xFFFF0000#32) = cwUnit cw := by
  rw [cwUnit, BitVec.extractLsb'_and]
  exact BitVec.and_allOnes

@[simp] theorem cwOp_and_mask : cwOp (cw &&& 0xFFFF0000#32) = cwOp cw := by
  rw [cwOp, BitVec.extractLsb'_and]
  exact BitVec.and_allOnes

@[simp] theorem cwRsv_and_mask : cwRsv (cw &&& 0xFFFF0000#32) = cwRsv cw := by
  rw [cwRsv, BitVec.extractLsb'_and]
  exact BitVec.and_allOnes

/-- A word that matches a row is the row's word but for the ARG that format FA leaves free. -/
theorem exists_decode_of_matches {r : CommandRow} (hr : r ∈ commandTable) (h : r.matches cw = true) :
    ∃ i, decode cw = .ok i := by
  obtain ⟨hformat, hmask, -, hrsv, harg⟩ := commandTable_row hr
  rw [← and_fields_of_matches hr h] at hformat hrsv
  simp only [cwUnit_and_mask, cwOp_and_mask, cwRsv_and_mask] at hformat hrsv
  obtain ⟨i, hcmd⟩ := (formatOf_eq_some_iff (arg := cwArg cw)).mp hformat
  refine ⟨i, decode_eq_ok_iff.mpr ⟨hrsv, _, hcmd, fun hfz => ?_⟩⟩
  have hfull : r.mask = 0xFFFFFFFF#32 := hmask.resolve_left (by simpa using hfz)
  have hword : cw = r.mat := by
    rw [CommandRow.matches, beq_iff_eq, hfull] at h
    exact BitVec.and_allOnes.symm.trans h
  rw [hword, harg]

open Laws.TableRow in
/-- The command's word matches its own row, whatever the command. -/
theorem statement_tableRow : ∀ i, Statement i
  | .rbtPush a => rbtPush a
  | .rbtPop a => rbtPop a
  | .rbtPopn a => rbtPopn a
  | .rbtClear => rbtClear
  | .rbtLen => rbtLen
  | .rbtIsempty => rbtIsempty
  | .rbtAvail => rbtAvail
  | .rbtCap => rbtCap
  | .rbtIsfull => rbtIsfull
  | .rbrPush a => rbrPush a
  | .rbrPop a => rbrPop a
  | .rbrPopn a => rbrPopn a
  | .rbrClear => rbrClear
  | .rbrLen => rbrLen
  | .rbrIsempty => rbrIsempty
  | .rbrAvail => rbrAvail
  | .rbrCap => rbrCap
  | .rbrIsfull => rbrIsfull
  | .ltxStart a => ltxStart a
  | .ltxDone => ltxDone
  | .ltxFault => ltxFault
  | .ltxStatus => ltxStatus
  | .ltxRetries => ltxRetries
  | .lrxStart => lrxStart
  | .lrxRead => lrxRead
  | .lrxFault => lrxFault
  | .lrxStatus => lrxStatus
  | .lrxRetries => lrxRetries
  | .lrxIdle => lrxIdle
  | .fqEnq a => fqEnq a
  | .fqDeq => fqDeq
  | .encEncode a => encEncode a
  | .annTick => annTick

/-- A word that decodes matches the row of its command (R109). -/
theorem exists_row_of_decode (h : decode cw = .ok i) :
    ∃ r ∈ commandTable, r.mnemonic = mnemonicOf i ∧ r.matches cw = true := by
  rw [decode_eq_ok_iff_encode.mp h]
  exact statement_tableRow i

end Sys2Proof

namespace Sys2Proof.Claims

/-- Settles O1: the fields of a command's word name the command. -/
theorem decodeOfEncode : Obligations.DecodeOfEncode := by
  unfold Obligations.DecodeOfEncode
  exact decode_encode

/-- Settles O2: the command that a word's fields name is encoded with these fields. -/
theorem encodeOfDecode : Obligations.EncodeOfDecode := by
  unfold Obligations.EncodeOfDecode
  exact fun _ _ h => encode_of_decode h

/-- Settles O3: above ARG a word that matches a row is the row's word, and no two rows share one. -/
theorem everyWordIsOneRowOrIllegal : Obligations.EveryWordIsOneRowOrIllegal := by
  unfold Obligations.EveryWordIsOneRowOrIllegal
  refine fun cw => ⟨⟨?toRow, ?ofRow⟩, fun r hr r' hr' => row_eq_of_matches hr hr', fun i => exists_row_of_decode⟩
  case toRow =>
    rintro ⟨i, hi⟩
    obtain ⟨r, hr, -, h⟩ := exists_row_of_decode hi
    exact ⟨r, hr, h⟩
  case ofRow =>
    rintro ⟨r, hr, h⟩
    exact exists_decode_of_matches hr h

/-- Settles O4: each error is answered on the condition of its check, with the format of UNIT and OP read off the
command list. -/
theorem reservedWordsFailTheChecksInOrder : Obligations.ReservedWordsFailTheChecksInOrder := by
  unfold Obligations.ReservedWordsFailTheChecksInOrder
  intro cw
  refine ⟨decode_eq_reservedField_iff, decode_eq_reservedUnit_iff, ?op, ?arg⟩
  case op =>
    rw [decode_eq_reservedOp_iff, formatOf_eq_none_iff_reserved]
    exact and_congr_right fun _ => by omega
  case arg =>
    rw [decode_eq_argNotZero_iff, formatOf_eq_some_false_iff]
    exact and_congr_right fun _ =>
      ⟨fun ⟨hunit, ⟨_, hop, hfz⟩, harg⟩ => ⟨by omega, by omega, hop, hfz, harg⟩,
        fun ⟨hlo, hhi, hop, hfz, harg⟩ => ⟨by omega, ⟨by omega, hop, hfz⟩, harg⟩⟩

end Sys2Proof.Claims

/-! What every command answers (30_encoding.md R104, R105; 60_exceptions.md R310): the response word field by field,
and of each operation that it responds as R105 says, refusing nothing but what breaks the premises of R103 and R330. -/

namespace Sys2Proof.Machine

open Sys2Proof.Claims

variable {s t : State} {r : Ring} {d : Dir} {n : Nat} {out : Bool} {i : Instr} {x : Transaction}

/-! ### The response word (R104) -/

/-- A response word's fields. -/
theorem responseWord_fields (r : Response) :
    (responseWord r).extractLsb' 28 4 = statusCode r.status ∧ (responseWord r).extractLsb' 17 11 = 0 ∧
    (responseWord r).getLsbD 16 = r.valid ∧ (responseWord r).extractLsb' 0 16 = r.value := by
  refine ⟨?status, ?zeros, ?v, ?value⟩
  case v =>
    simp only [responseWord, BitVec.getLsbD_append]
    simp
  all_goals
    ext j hj
    simp only [responseWord, BitVec.getElem_extractLsb', BitVec.getLsbD_append]
    interval_cases j <;> simp [← BitVec.getLsbD_eq_getElem]

theorem statusCode_toNat (st : Status) : (statusCode st).toNat = statusNumber st := by
  cases st <;> rfl

/-! ### A word that is no command -/

/-- A transaction whose word is illegal (R109). -/
theorem runTransaction_of_decode_error {e : DecodeError} (hx : decode x.cw = .error e) :
    runTransaction x s = .next (raiseError { s with port := x.port } .illegal) := by
  simp only [runTransaction, hx]

/-! ### Responses -/

/-- The state holds a response whose payload, where the command has one and succeeds, is VALUE bytes (R105), and whose V
and VALUE are zero on an error (R310). -/
def Responds (out : Bool) (t : State) : Prop :=
  ∃ r, t.out.resp = some r ∧
    r.dout.length = (if out = true ∧ r.status = .ok then r.value.toNat else 0) ∧
    (r.status ≠ .ok → r.valid = false ∧ r.value = 0)

theorem respond_responds {val : Half} {data : List Byte} (hlen : data.length = val.toNat) (v : Bool) :
    Responds true (respond s .ok v val data) := ⟨_, rfl, by simpa using hlen, nofun⟩

theorem respond_empty_responds (v : Bool) (val : Half) : Responds false (respond s .ok v val []) :=
  ⟨_, rfl, by simp, nofun⟩

theorem raiseError_responds {e : Status} (he : e ≠ .ok) : Responds out (raiseError s e) :=
  ⟨_, rfl, by simp [he], fun _ => ⟨rfl, rfl⟩⟩

theorem respondStart_responds (v : Bool) (val : Half) : Responds false (respondStart s d v val) := by
  rcases respondStart_cases (s := s) (d := d) v val with ⟨-, e⟩ | ⟨-, e⟩ <;> rw [e]
  · exact respond_empty_responds v val
  · exact raiseError_responds (by cases d <;> nofun)

/-- An outcome that is no refusal, and that responds where it is a next state. -/
def Answers (out : Bool) : Result → Prop
  | .next t => Responds out t
  | .fault _ => True
  | .refused _ => False

theorem answer_answers (val : Half) : Answers false (.next (answer s val)) := respond_empty_responds ..

theorem acknowledge_answers : Answers false (.next (acknowledge s)) := respond_empty_responds ..

theorem raiseError_answers {e : Status} (he : e ≠ .ok) : Answers out (.next (raiseError s e)) :=
  raiseError_responds he

theorem respondStart_answers (v : Bool) (val : Half) : Answers false (.next (respondStart s d v val)) :=
  respondStart_responds v val

/-! ### Ring buffers -/

theorem natValue_toNat (hn : n ≤ 65535) : (natValue n).toNat = n := by
  simp only [natValue, BitVec.toNat_ofNat]
  omega

/-- A POP of at most 65535 bytes answers as many as its VALUE says (R141). -/
theorem takeRing_answers (m : Half) : Answers true (.next (takeRing r (argNat m) s)) := by
  have hm : argNat m < 65536 := m.isLt
  refine respond_responds ?_ true
  rw [ringFront_length, natValue_toNat]
  simp only [ringTakeCount]
  omega

theorem pushRing_answers (h : ¬ (n ≤ ringAvail s.cfg (s.ring r) ∧ s.port.din.length ≠ n)) :
    Answers false (pushRing r n s) := by
  rcases pushRing_cases (r := r) (n := n) (s := s) with ⟨-, e⟩ | ⟨hfit, hlen, -⟩ | ⟨-, -, e⟩
  · exact e ▸ raiseError_answers nofun
  · exact absurd ⟨hfit, hlen⟩ h
  · exact e ▸ answer_answers _

theorem pushRing_refused (hfit : n ≤ ringAvail s.cfg (s.ring r)) (hlen : s.port.din.length ≠ n) :
    pushRing r n s = .refused .payloadLength := by
  rcases pushRing_cases (r := r) (n := n) (s := s) with ⟨hfull, -⟩ | ⟨-, -, e⟩ | ⟨-, heq, -⟩
  · omega
  · exact e
  · exact absurd heq hlen

theorem popnRing_answers (m : Half) : Answers true (popnRing r (argNat m) s) := by
  rcases popnRing_cases (r := r) (n := argNat m) (s := s) with ⟨-, e⟩ | ⟨-, e⟩ <;> rw [e]
  · exact takeRing_answers m
  · exact raiseError_answers nofun

/-! ### Link transfers -/

theorem startTx_answers : Answers false (startTx n s) := by
  rcases startTx_cases (s := s) (len := n) with ⟨-, e⟩ | ⟨-, -, -, e⟩ | ⟨-, -, e⟩ <;> rw [e]
  · exact raiseError_answers nofun
  · exact raiseError_answers nofun
  · exact respondStart_answers ..

theorem doneTx_answers : Answers false (doneTx s) := by
  unfold doneTx
  split <;> exact answer_answers _

theorem faultLink_answers : Answers false (faultLink d s) := by
  rcases faultLink_cases (s := s) (d := d) with ⟨-, e⟩ | ⟨-, -, e⟩ | ⟨-, -, e⟩ <;> rw [e]
  · exact answer_answers _
  · exact respondStart_answers ..
  · exact raiseError_answers nofun

theorem startRx_answers : Answers false (startRx s) := by
  rcases startRx_cases (s := s) with ⟨-, e⟩ | ⟨-, e⟩ <;> rw [e]
  · exact raiseError_answers nofun
  · exact respondStart_answers ..

theorem readRx_answers : Answers false (readRx s) := by
  rcases readRx_cases (s := s) with ⟨-, e⟩ | ⟨-, e⟩ | ⟨-, -, e⟩ | ⟨-, -, e⟩ <;> rw [e]
  · exact raiseError_answers nofun
  · exact answer_answers _
  · exact raiseError_answers nofun
  · exact answer_answers _

/-! ### Fault queue and encoder -/

theorem enqueueCode_answers (code : Half) : Answers false (enqueueCode code s) := by
  unfold enqueueCode
  split
  · exact acknowledge_answers
  · exact raiseError_answers nofun

theorem dequeueCode_answers : Answers false (dequeueCode s) := by
  unfold dequeueCode
  split
  · exact acknowledge_answers
  · exact answer_answers _

/-- Each divisor adds at most the five symbols of a digit and a gap before them (45_code_encoder.md R263). -/
theorem encodeFrom_length_le_add {c : Config} {v : Nat} {ds : List Nat} {emitted syms : List Symbol} {started : Bool}
    (he : encodeFrom c v ds emitted started = some syms) : syms.length ≤ emitted.length + 6 * ds.length := by
  induction ds generalizing emitted started with
  | nil =>
    cases he
    exact Nat.le_add_right ..
  | cons w ds ih =>
    rw [encodeFrom] at he
    split_ifs at he with hskip hstarted hlong
    all_goals
      have := ih he
      simp only [List.length_append, List.length_cons, List.length_nil, rowSymbols_length] at this ⊢
      omega

theorem encodeCode_length_le_thirty {c : Config} {v : Half} {syms : List Symbol} (he : encodeCode c v = some syms) :
    syms.length ≤ 30 := encodeFrom_length_le_add he

theorem execEncEncode_answers (v : Half) : Answers true (execEncEncode v s) := by
  unfold execEncEncode
  split
  next syms he =>
    have := encodeCode_length_le_thirty he
    exact respond_responds (by rw [List.length_map, natValue_toNat (by omega)]) true
  · exact raiseError_answers nofun

/-! ### Annunciator -/

theorem respondTick_answers : Answers false (respondTick s) := answer_answers _

theorem tickLoad_answers : Answers false (tickLoad s) := by
  rcases tickLoad_cases (s := s) with ⟨-, e⟩ | ⟨_, _, -, -, e⟩ | ⟨_, _, _, -, -, e⟩ <;> rw [e]
  · exact respondTick_answers
  · exact raiseError_answers nofun
  · exact respondTick_answers

theorem tickSymbol_answers (f : Annunciator → Symbol → Annunciator) : Answers false (tickSymbol f s) := by
  rcases tickSymbol_cases (s := s) f with ⟨-, e⟩ | ⟨-, e⟩ <;> rw [e]
  · exact respondTick_answers
  · trivial

theorem tickBranch_answers : Answers false (tickBranch s) := by
  unfold tickBranch
  split
  · split
    · exact tickLoad_answers
    split
    · exact respondTick_answers
    · exact tickSymbol_answers _
  · exact tickSymbol_answers _
  · exact tickSymbol_answers _

theorem execAnnTick_answers (h : ¬ s.port.now < s.ann.tlast) : Answers false (execAnnTick s) := by
  rw [execAnnTick, if_neg h]
  exact tickBranch_answers

theorem execAnnTick_refused (h : s.port.now < s.ann.tlast) : execAnnTick s = .refused .timeBackwards := if_pos h

/-! ### Every command -/

/-- The premises of R103 and R330 that a command's inputs break, with the model's name for each. -/
def OutsidePremises (i : Instr) (s : State) (e : Refusal) : Prop :=
  (∃ r n, i = pushOf r n ∧ n.toNat ≤ s.cfg.ringCap - (s.ring r).cnt ∧ s.port.din.length ≠ n.toNat ∧
    e = .payloadLength) ∨
  (i = .annTick ∧ s.port.now < s.ann.tlast ∧ e = .timeBackwards)

theorem exec_pushOf (r : Ring) (n : Half) : exec (pushOf r n) s = pushRing r n.toNat s := by
  cases r <;> rfl

theorem exec_of_outsidePremises {e : Refusal} (h : OutsidePremises i s e) : exec i s = .refused e := by
  obtain ⟨r, n, rfl, hfit, hlen, rfl⟩ | ⟨rfl, hnow, rfl⟩ := h
  · rw [exec_pushOf]
    exact pushRing_refused hfit hlen
  · exact execAnnTick_refused hnow

theorem exec_answers (h : ∀ e, ¬ OutsidePremises i s e) : Answers (hasOutput i) (exec i s) := by
  have hpush (r : Ring) (n : Half) (hi : i = pushOf r n) : Answers false (pushRing r n.toNat s) :=
    pushRing_answers fun ⟨hfit, hlen⟩ => h _ (.inl ⟨r, n, hi, hfit, hlen, rfl⟩)
  cases i with
  | rbtPush n => exact hpush .rbt n rfl
  | rbrPush n => exact hpush .rbr n rfl
  | rbtPop m | rbrPop m => exact takeRing_answers m
  | rbtPopn m | rbrPopn m => exact popnRing_answers m
  | rbtClear | rbrClear => exact acknowledge_answers
  | rbtLen | rbtIsempty | rbtAvail | rbtCap | rbtIsfull => exact answer_answers _
  | rbrLen | rbrIsempty | rbrAvail | rbrCap | rbrIsfull => exact answer_answers _
  | ltxStart => exact startTx_answers
  | ltxDone => exact doneTx_answers
  | ltxFault | lrxFault => exact faultLink_answers
  | ltxStatus | ltxRetries | lrxStatus | lrxRetries | lrxIdle => exact answer_answers _
  | lrxStart => exact startRx_answers
  | lrxRead => exact readRx_answers
  | fqEnq code => exact enqueueCode_answers code
  | fqDeq => exact dequeueCode_answers
  | encEncode v => exact execEncEncode_answers v
  | annTick => exact execAnnTick_answers fun hnow => h _ (.inr ⟨rfl, hnow, rfl⟩)

theorem exec_eq_refused_iff {e : Refusal} : exec i s = .refused e ↔ OutsidePremises i s e := by
  refine ⟨fun href => ?_, exec_of_outsidePremises⟩
  by_cases h : ∃ e', OutsidePremises i s e'
  · obtain ⟨e', he'⟩ := h
    cases href.symm.trans (exec_of_outsidePremises he')
    exact he'
  · have := exec_answers (not_exists.mp h)
    rw [href] at this
    exact this.elim

theorem exec_next_responds (ht : exec i s = .next t) : Responds (hasOutput i) t := by
  have hin (e : Refusal) : ¬ OutsidePremises i s e := fun he => nomatch ht.symm.trans (exec_of_outsidePremises he)
  have := exec_answers hin
  rwa [ht] at this

end Sys2Proof.Machine

namespace Sys2Proof.Claims

open Sys2Proof.Machine

/-- Settles O8: outside the premises the two refusals are `pushRing`'s and TICK's, and within them every command
answers. -/
theorem commandsRefuseOnlyOutsideThePremises : Obligations.CommandsRefuseOnlyOutsideThePremises := by
  unfold Obligations.CommandsRefuseOnlyOutsideThePremises
  exact fun _ _ _ => exec_eq_refused_iff

/-- Settles O48. The bounds on the counts are not needed: a POP takes at most ARG bytes, and ENCODE emits at most 30
symbols. -/
theorem everyCommandRespondsOnce : Obligations.EveryCommandRespondsOnce := by
  unfold Obligations.EveryCommandRespondsOnce
  refine ⟨fun r => ?_, fun _ _ _ _ _ ht => exec_next_responds ht⟩
  obtain ⟨hstatus, hzeros, hv, hvalue⟩ := responseWord_fields r
  exact ⟨by rw [hstatus, statusCode_toNat], hzeros, hv, hvalue⟩

/-- Settles O5: the one error report of an illegal word writes the response only. -/
theorem illegalWordsChangeNothing : Obligations.IllegalWordsChangeNothing := by
  unfold Obligations.IllegalWordsChangeNothing
  intro x s e hx
  exact ⟨_, runTransaction_of_decode_error hx, ⟨rfl, rfl, rfl, rfl, rfl, rfl⟩, rfl, rfl, rfl, rfl, rfl, rfl⟩

/-- Settles O6, word by word. -/
theorem writtenOutWordsDecode : Obligations.WrittenOutWordsDecode := by
  unfold Obligations.WrittenOutWordsDecode
  refine ⟨?_, ?_, ?_, ?_, ?_, ?_, ?_, ?_⟩ <;> decide

end Sys2Proof.Claims

/-! The table of R128: for each branch of TICK the rows it follows, each a fact about what the branch makes of the
annunciator, and the VALUE and STATUS it answers (46_annunciator.md R281). -/

namespace Sys2Proof.Machine

open Sys2Proof.Claims

variable {s t : State} {c : Config} {a : Annunciator} {status : Status}

/-! ### The sequence loaded (R282) -/

theorem loadSeq_read_new (h : Store.wf Symbol.dot a.seq) {syms : List Symbol} {i : Nat} {sym : Symbol}
    (hi : syms[i]? = some sym) : Store.read Symbol.dot (loadSeq a syms).seq i = sym := by
  have hlt : i < syms.length := (List.getElem?_eq_some_iff.mp hi).1
  rw [loadSeq, Store.read_writeRun h, if_pos (by omega)]
  simp [List.getD, hi]

theorem loadSeq_read_old (h : Store.wf Symbol.dot a.seq) {syms : List Symbol} {i : Nat} (hi : syms.length ≤ i) :
    Store.read Symbol.dot (loadSeq a syms).seq i = Store.read Symbol.dot a.seq i := by
  rw [loadSeq, Store.read_writeRun h, if_neg (by omega)]

/-! ### The LED and what is loaded -/

theorem led_eq_true_of_signal (h : TickReady c a) (hst : a.st = .signal) : a.led = true := h.1.mpr hst

theorem led_eq_false_of_not_signal (h : TickReady c a) (hst : a.st ≠ .signal) : a.led = false :=
  Bool.eq_false_iff.mpr (mt h.1.mp hst)

theorem idx_eq_zero_of_not_loaded (h : TickReady c a) (hload : a.loaded = false) : a.idx = 0 := by
  obtain ⟨-, -, hempty, -⟩ := h
  exact (hempty hload).2.1

theorem slen_le_seqMax (h : TickReady c a) : a.slen ≤ c.seqMax := by
  obtain ⟨-, -, -, -, hslen, -⟩ := h
  exact hslen

theorem idx_lt_seqMax_of_active (h : TickReady c a) (hst : a.st ≠ .idle) : a.idx < c.seqMax := by
  have hslen := slen_le_seqMax h
  obtain ⟨-, hplay, -⟩ := h
  exact (hplay hst).2.trans_le hslen

/-! ### What a TICK answers -/

/-- VALUE of TICK as a number: `4 * led + st` (R281). -/
theorem annStatus_toNat (a : Annunciator) :
    (annStatus a).toNat = (if a.led then 4 else 0) + (annCode a.st).toNat := by
  unfold annStatus
  cases a.led <;> cases a.st <;> rfl

/-- An outcome that is a next state by a row of R128, with the response of R281. -/
def FollowsTable (s : State) (x : Result) : Prop :=
  ∃ t status valid v, x = .next t ∧ TickRow s t status ∧ Answered t status valid v [] ∧
    (status = .ok → valid = true) ∧ v.toNat = (if t.ann.led then 4 else 0) + (annCode t.ann.st).toNat

theorem respondTick_follows (h : TickRow s t .ok) : FollowsTable s (respondTick t) :=
  ⟨answer t (annStatus t.ann), .ok, true, annStatus t.ann, rfl, h, rfl, fun _ => rfl, annStatus_toNat t.ann⟩

/-- With the LED off in Idle the VALUE 0 of an error is that of R281 as well. -/
theorem raiseError_follows (h : TickRow s t status) (herr : status ≠ .ok) (hst : t.ann.st = .idle)
    (hled : t.ann.led = false) : FollowsTable s (.next (raiseError t status)) :=
  ⟨raiseError t status, status, false, 0, rfl, h, rfl, fun hok => absurd hok herr, by simp [hst, hled, annCode]⟩

/-- A branch that reads the current symbol, given its row. -/
theorem tickSymbol_follows {f : Annunciator → Symbol → Annunciator} (hidx : s.ann.idx < s.cfg.seqMax)
    (h : TickRow s { s with ann := f s.ann (current s.ann) } .ok) : FollowsTable s (tickSymbol f s) := by
  rcases tickSymbol_cases (s := s) f with ⟨-, e⟩ | ⟨hout, -⟩
  · rw [e]
    exact respondTick_follows h
  · omega

/-! ### The rows, branch by branch -/

/-- A row whose duration has not passed. -/
theorem moved_self {st : AnnState} {led : Bool} (hst : a.st = st) (hled : a.led = led) :
    Moved a a st a.idx led a.tlast := by
  subst hst hled
  rfl

/-- LOAD (R282). -/
theorem tickLoad_follows (h : TickReady s.cfg s.ann) (hst : s.ann.st = .idle) (hload : s.ann.loaded = false) :
    FollowsTable s (tickLoad s) := by
  have hoff : s.ann.led = false := led_eq_false_of_not_signal h (by simp [hst])
  have hzero : s.ann.idx = 0 := idx_eq_zero_of_not_loaded h hload
  obtain ⟨-, -, -, -, -, hwf⟩ := h
  rcases tickLoad_cases (s := s) with ⟨hq, e⟩ | ⟨code, q, hq, henc, e⟩ | ⟨code, q, syms, hq, henc, e⟩ <;> rw [e]
  · apply respondTick_follows
    simp [TickRow, hst, hload, hq, hzero, hoff]
  · refine raiseError_follows ?_ nofun hst hoff
    simp [TickRow, hst, hload, hq, henc, hzero, hoff]
  · apply respondTick_follows
    simp only [TickRow, hst, hload, hq, henc, if_true, true_and]
    exact ⟨rfl, rfl, rfl, hst, hoff, rfl, fun _ _ => loadSeq_read_new hwf,
      fun _ => loadSeq_read_old hwf⟩

/-- END (R283). -/
theorem tickEnd_follows (hst : s.ann.st = .idle) (hload : s.ann.loaded = true) (hend : s.ann.slen ≤ s.ann.idx) :
    FollowsTable s (tickEnd s) := by
  apply respondTick_follows
  simp [TickRow, hst, hload, hend, Discarded, discardSeq]

/-- START (R284). -/
theorem startSymbol_row (h : TickReady s.cfg s.ann) (hst : s.ann.st = .idle) (hload : s.ann.loaded = true)
    (hmore : s.ann.idx < s.ann.slen) :
    TickRow s { s with ann := startSymbol s.port.now s.ann (current s.ann) } .ok := by
  have hoff : s.ann.led = false := led_eq_false_of_not_signal h (by simp [hst])
  simp only [TickRow, hst, hload, Nat.not_le.mpr hmore]
  cases current s.ann with
  | dot | dash => simp [startSymbol, Moved]
  | gap => simp [startSymbol, Moved, ← hoff]
  | invalid => simp [startSymbol, Discarded, discardSeq]

/-- SIGNAL (R285): a dot or a dash whose on-time has passed, or has not, and any other symbol. -/
theorem signalSymbol_row (h : TickReady s.cfg s.ann) (hst : s.ann.st = .signal) :
    TickRow s { s with ann := signalSymbol s.cfg s.port.now s.ann (current s.ann) } .ok := by
  have hon : s.ann.led = true := led_eq_true_of_signal h hst
  simp only [TickRow, hst]
  cases current s.ann with
  | dot | dash =>
    simp only [signalSymbol, litMark, onTime]
    split
    next hel => simp [hel, Moved]
    next hel => simp [hel, moved_self hst hon]
  | gap | invalid => simp [signalSymbol, litMark, Discarded, discardSeq]

/-- PAUSE (R286): a symbol whose pause has passed, or has not, and INVALID. -/
theorem pauseSymbol_row (h : TickReady s.cfg s.ann) (hst : s.ann.st = .pause) :
    TickRow s { s with ann := pauseSymbol s.cfg s.port.now s.ann (current s.ann) } .ok := by
  have hoff : s.ann.led = false := led_eq_false_of_not_signal h (by simp [hst])
  simp only [TickRow, hst]
  cases current s.ann with
  | dot | dash | gap =>
    simp only [pauseSymbol, pauseTime]
    split
    · simp [Moved, ← hoff]
    · simp [moved_self hst hoff]
  | invalid => simp [pauseSymbol, pauseTime, Discarded, discardSeq]

theorem tickBranch_follows (h : TickReady s.cfg s.ann) : FollowsTable s (tickBranch s) := by
  have hactive (hst : s.ann.st ≠ .idle) : s.ann.idx < s.cfg.seqMax := idx_lt_seqMax_of_active h hst
  unfold tickBranch
  split
  next hst =>
    split
    next hload => exact tickLoad_follows h hst hload
    next hload =>
      have hloaded : s.ann.loaded = true := by simpa using hload
      split
      next hend => exact tickEnd_follows hst hloaded hend
      next hmore =>
        have := slen_le_seqMax h
        exact tickSymbol_follows (by omega) (startSymbol_row h hst hloaded (by omega))
  next hst => exact tickSymbol_follows (hactive (by simp [hst])) (signalSymbol_row h hst)
  next hst => exact tickSymbol_follows (hactive (by simp [hst])) (pauseSymbol_row h hst)

theorem execAnnTick_follows (h : TickReady s.cfg s.ann) (hnow : s.ann.tlast ≤ s.port.now) :
    FollowsTable s (execAnnTick s) := by
  rw [execAnnTick, if_neg (by omega)]
  exact tickBranch_follows h

/-- TICK leaves the rings, the link directions and what lies outside the block as they are (20_memory.md R70). -/
theorem annTick_frame (ht : exec .annTick s = .next t) :
    t.rbt = s.rbt ∧ t.rbr = s.rbr ∧ t.ltx = s.ltx ∧ t.lrx = s.lrx ∧ s.SameSurround t := by
  obtain ⟨hsurround, hrbt, hrbr, hltx, hlrx, -, -⟩ := exec_changesOnly .annTick t ht
  simp only [Reaches, reduceCtorEq, exists_const, or_self, imp_false, not_not] at hrbt hrbr hltx hlrx
  exact ⟨hrbt, hrbr, hltx, hlrx, hsurround⟩

end Sys2Proof.Machine

namespace Sys2Proof.Claims

open Sys2Proof.Machine

/-- Settles O35: each branch of TICK follows its rows, and no other unit is one that TICK reaches. -/
theorem tickFollowsTheTable : Obligations.TickFollowsTheTable := by
  unfold Obligations.TickFollowsTheTable
  intro s hready hnow
  refine ⟨packWord_fields 7 0 0, ?_⟩
  obtain ⟨t, status, valid, v, ht, hrow, hanswered, hvalid, hv⟩ := execAnnTick_follows hready hnow
  refine ⟨t, status, valid, v, ht, hrow, hanswered, hvalid, ?_, annTick_frame ht⟩
  rw [hv]
  cases t.ann.st <;> rfl

end Sys2Proof.Claims

/-! The ring-buffer commands (41_ringbuffer.md R140 to R148) by what they answer and what they make of the addressed
ring: the copies byte by byte (R149), the byte queue that the content is (R150), and the account of pushed and popped
bytes (R152). -/

namespace Sys2Proof.Machine

open Sys2Proof.Claims

variable {s t : State} {c : Config} {rb : RingBuf} {data : List Byte} {r : Ring} {n k : Nat} {i : Instr}

/-! ### The commands of a ring by name -/

theorem encoded_of_encode_eq {u o : BitVec 4} {arg : Half} (h : encode i = packWord u o arg) : Encoded i u o arg := by
  simp [Encoded, h]

theorem encoded_pushOf (r : Ring) (n : Half) : Encoded (pushOf r n) (ringUnit r) 0 n :=
  encoded_of_encode_eq (by cases r <;> rfl)

theorem encoded_popOf (r : Ring) (m : Half) : Encoded (popOf r m) (ringUnit r) 1 m :=
  encoded_of_encode_eq (by cases r <;> rfl)

theorem encoded_popnOf (r : Ring) (n : Half) : Encoded (popnOf r n) (ringUnit r) 2 n :=
  encoded_of_encode_eq (by cases r <;> rfl)

theorem encoded_clearOf (r : Ring) : Encoded (clearOf r) (ringUnit r) 3 0 :=
  encoded_of_encode_eq (by cases r <;> rfl)

theorem encoded_lenOf (r : Ring) : Encoded (lenOf r) (ringUnit r) 4 0 :=
  encoded_of_encode_eq (by cases r <;> rfl)

theorem encoded_isemptyOf (r : Ring) : Encoded (isemptyOf r) (ringUnit r) 5 0 :=
  encoded_of_encode_eq (by cases r <;> rfl)

theorem encoded_availOf (r : Ring) : Encoded (availOf r) (ringUnit r) 6 0 :=
  encoded_of_encode_eq (by cases r <;> rfl)

theorem encoded_capOf (r : Ring) : Encoded (capOf r) (ringUnit r) 7 0 :=
  encoded_of_encode_eq (by cases r <;> rfl)

theorem encoded_isfullOf (r : Ring) : Encoded (isfullOf r) (ringUnit r) 8 0 :=
  encoded_of_encode_eq (by cases r <;> rfl)

theorem exec_popOf (r : Ring) (m : Half) : exec (popOf r m) s = .next (takeRing r m.toNat s) := by
  cases r <;> rfl

theorem exec_popnOf (r : Ring) (n : Half) : exec (popnOf r n) s = popnRing r n.toNat s := by
  cases r <;> rfl

theorem exec_clearOf (r : Ring) : exec (clearOf r) s = .next (acknowledge (s.setRing r ringCleared)) := by
  cases r <;> rfl

theorem exec_lenOf (r : Ring) : exec (lenOf r) s = .next (responded s .ok true (natValue (s.ring r).cnt)) := by
  cases r <;> rfl

theorem exec_isemptyOf (r : Ring) :
    exec (isemptyOf r) s = .next (responded s .ok true (if (s.ring r).cnt = 0 then 1 else 0)) := by
  have hexec : exec (isemptyOf r) s = .next (responded s .ok true (boolValue (ringEmpty (s.ring r)))) := by
    cases r <;> rfl
  simpa [boolValue, ringEmpty] using hexec

theorem exec_availOf (r : Ring) :
    exec (availOf r) s = .next (responded s .ok true (natValue (s.cfg.ringCap - (s.ring r).cnt))) := by
  cases r <;> rfl

theorem exec_capOf (r : Ring) : exec (capOf r) s = .next (responded s .ok true (natValue s.cfg.ringCap)) := by
  cases r <;> rfl

theorem exec_isfullOf (r : Ring) :
    exec (isfullOf r) s = .next (responded s .ok true (if (s.ring r).cnt = s.cfg.ringCap then 1 else 0)) := by
  have hexec : exec (isfullOf r) s = .next (responded s .ok true (boolValue (ringFull s.cfg (s.ring r)))) := by
    cases r <;> rfl
  simpa [boolValue, ringFull] using hexec

theorem natValue_of_half (n : Half) : natValue n.toNat = n := by simp [natValue]

/-! ### Flags and frames -/

theorem ringEmpty_eq_true_iff : ringEmpty rb = true ↔ rb.cnt = 0 := by simp [ringEmpty]

theorem ringFull_eq_true_iff : ringFull c rb = true ↔ rb.cnt = c.ringCap := by simp [ringFull]

/-- The cursors of a full ring are equal (R145). -/
theorem wp_eq_rp_of_full (h : rb.Inv c) (hfull : rb.cnt = c.ringCap) : rb.wp = rb.rp := by
  obtain ⟨hwp, -, hrp, -⟩ := h
  rw [hwp, hfull, Nat.add_mod_right, Nat.mod_eq_of_lt hrp]

/-- What may change the one ring only changes the one ring only. -/
theorem ChangesOnly.onlyRing (h : ChangesOnly (.ring r = ·) s t) : OnlyRing r s t := by
  obtain ⟨hsurround, hrbt, hrbr, hltx, hlrx, hfq, hann⟩ := h
  simp only [reduceCtorEq, imp_false, not_not, BlockUnit.ring.injEq] at *
  refine ⟨fun r' hr' => ?_, hltx, hlrx, hfq, hann, hsurround⟩
  by_contra hne
  cases r' with
  | rbt => exact hr' (hrbt hne).symm
  | rbr => exact hr' (hrbr hne).symm

/-! ### POP (R141) -/

theorem takeRing_ring : (takeRing r n s).ring r = ringDrop s.cfg (s.ring r) (min n (s.ring r).cnt) := by
  simp [takeRing, ringTakeCount]

theorem takeRing_onlyRing : OnlyRing r s (takeRing r n s) := (takeRing_changesOnly rfl).onlyRing

theorem ringDrop_gaveFront : GaveFront c rb (ringDrop c rb k) k := ⟨rfl, rfl, rfl, rfl⟩

theorem ringFront_frontBytes (hr : rb.rp < c.ringCap) (hk : k ≤ c.ringCap) : FrontBytes c rb k (ringFront c rb k) := by
  refine ⟨ringFront_length, fun i hi => ?_⟩
  rw [ringFront_eq_map hr hk]
  simp [hi]

/-- POP by the cursors: the `min(m, cnt)` oldest bytes, returned and removed. -/
theorem takeRing_gives (h : (s.ring r).Inv s.cfg) (m : Half) :
    ∃ (k : Half) (out : List Byte), k.toNat = min m.toNat (s.ring r).cnt ∧
      GaveFront s.cfg (s.ring r) ((takeRing r m.toNat s).ring r) k.toNat ∧
      FrontBytes s.cfg (s.ring r) k.toNat out ∧ Answered (takeRing r m.toNat s) .ok true k out := by
  obtain ⟨-, -, hrp, hcnt, -⟩ := h
  have hm : m.toNat < 65536 := m.isLt
  have hk : (natValue (min m.toNat (s.ring r).cnt)).toNat = min m.toNat (s.ring r).cnt := natValue_toNat (by omega)
  refine ⟨natValue (min m.toNat (s.ring r).cnt), ringFront s.cfg (s.ring r) (min m.toNat (s.ring r).cnt), hk, ?_, ?_,
    rfl⟩
  · rw [hk, takeRing_ring]
    exact ringDrop_gaveFront
  · rw [hk]
    exact ringFront_frontBytes hrp (by omega)

/-- POP by the content: its first `n` bytes are answered and the rest is left (R150). -/
theorem takeRing_refines (h : (s.ring r).Inv s.cfg) :
    Answered (takeRing r n s) .ok true (natValue ((ringContent s.cfg (s.ring r)).take n).length)
      ((ringContent s.cfg (s.ring r)).take n) ∧
    ringContent s.cfg ((takeRing r n s).ring r) = (ringContent s.cfg (s.ring r)).drop n := by
  have htake : ringFront s.cfg (s.ring r) (min n (s.ring r).cnt) = (ringContent s.cfg (s.ring r)).take n := by
    rw [ringFront_eq_take h (Nat.min_le_right ..), List.take_eq_take_iff]
    simp
  refine ⟨?_, ?_⟩
  · rw [← htake, ringFront_length]
    rfl
  · rw [takeRing_ring, ringContent_ringDrop, List.drop_eq_drop_iff]
    simp

/-- POPN within its bound is POP (R142). -/
theorem popnRing_of_le (hn : n ≤ s.cfg.bufSize) : popnRing r n s = .next (takeRing r n s) := by
  rcases popnRing_cases (r := r) (n := n) (s := s) with ⟨-, e⟩ | ⟨hbeyond, -⟩
  · exact e
  · omega

theorem popnRing_of_lt (hn : s.cfg.bufSize < n) : popnRing r n s = .next (raiseError s .illegal) := by
  rcases popnRing_cases (r := r) (n := n) (s := s) with ⟨hin, -⟩ | ⟨-, e⟩
  · omega
  · exact e

/-! ### PUSH (R140) -/

/-- The state after a PUSH whose payload fits. -/
def pushed (r : Ring) (n : Half) (s : State) : State :=
  answer (s.setRing r (ringAppend s.cfg (s.ring r) s.port.din)) n

@[simp] theorem pushed_ring {n : Half} : (pushed r n s).ring r = ringAppend s.cfg (s.ring r) s.port.din := by
  simp [pushed]

theorem pushed_answered (n : Half) : Answered (pushed r n s) .ok true n [] := rfl

theorem pushed_onlyRing {n : Half} : OnlyRing r s (pushed r n s) :=
  ((ChangesOnly.refl.setRing rfl _).answer _).onlyRing

theorem raiseError_onlyRing (e : Status) : OnlyRing r s (raiseError s e) := (ChangesOnly.refl.raiseError e).onlyRing

/-- A PUSH with a payload of ARG bytes: BufferOverflow or the bytes admitted. -/
theorem exec_pushOf_cases {n : Half} (hlen : s.port.din.length = n.toNat) :
    (s.cfg.ringCap - (s.ring r).cnt < n.toNat ∧ exec (pushOf r n) s = .next (raiseError s .bufferOverflow)) ∨
    (n.toNat ≤ s.cfg.ringCap - (s.ring r).cnt ∧ exec (pushOf r n) s = .next (pushed r n s)) := by
  rw [exec_pushOf]
  rcases pushRing_cases (r := r) (n := n.toNat) (s := s) with ⟨hfull, e⟩ | ⟨-, hne, -⟩ | ⟨hfit, -, e⟩
  · exact .inl ⟨hfull, e⟩
  · exact absurd hlen hne
  · rw [natValue_of_half] at e
    exact .inr ⟨hfit, e⟩

/-- The two runs of a PUSH, byte by byte (R149). -/
theorem ringAppend_tookBack (h : rb.Inv c) (hfit : data.length ≤ c.ringCap - rb.cnt) :
    TookBack c rb (ringAppend c rb data) data := by
  obtain ⟨-, hwp, -, -, hmem, -⟩ := h
  have hlen : data.length ≤ c.ringCap := by omega
  refine ⟨rfl, rfl, rfl, fun i x hx => ?_, fun _ => ringAppend_read_old hmem hwp hlen⟩
  have hi : i < data.length := (List.getElem?_eq_some_iff.mp hx).1
  exact Option.some_inj.mp ((ringAppend_read_new hmem hwp hlen hi).trans hx)

/-! ### The account of a ring (R152) -/

theorem isPush_iff : isPush r i = true ↔ ∃ n, i = pushOf r n := by
  constructor
  · intro h
    unfold isPush at h
    split at h
    · exact ⟨_, rfl⟩
    · exact ⟨_, rfl⟩
    · cases h
  · rintro ⟨n, rfl⟩
    cases r <;> rfl

theorem isTake_iff : isTake r i = true ↔ ∃ n, i = popOf r n ∨ i = popnOf r n := by
  constructor
  · intro h
    unfold isTake at h
    split at h
    · exact ⟨_, .inl rfl⟩
    · exact ⟨_, .inr rfl⟩
    · exact ⟨_, .inl rfl⟩
    · exact ⟨_, .inr rfl⟩
    · cases h
  · rintro ⟨n, rfl | rfl⟩ <;> cases r <;> rfl

theorem isTake_of_isPush (h : isPush r i = true) : isTake r i = false := by
  obtain ⟨n, rfl⟩ := isPush_iff.mp h
  cases r <;> rfl

/-- A command's entry in the account of ring `r`: `t` follows `s`, the ring meets RB-INV, and its count is the former
one with what was pushed and without what was popped, as the response tells. -/
structure RingEntry (r : Ring) (i : Instr) (s t : State) : Prop where
  inv : (t.ring r).Inv s.cfg
  balance : ∃ resp, t.out.resp = some resp ∧
    (t.ring r).cnt + (if isTake r i then okValue resp else 0) =
      (s.ring r).cnt + if isPush r i then okValue resp else 0

/-- A failed command enters nothing. -/
theorem raiseError_entry (h : (s.ring r).Inv s.cfg) {e : Status} (he : e ≠ .ok) : RingEntry r i s (raiseError s e) := by
  refine ⟨by simpa using h, _, rfl, ?_⟩
  simp [okValue, he]

theorem pushed_entry (h : (s.ring r).Inv s.cfg) {n : Half} (hlen : s.port.din.length = n.toNat)
    (hfit : n.toNat ≤ s.cfg.ringCap - (s.ring r).cnt) (hi : isPush r i = true) : RingEntry r i s (pushed r n s) := by
  rw [← hlen] at hfit
  refine ⟨by simpa using ringAppend_inv h hfit, _, pushed_answered n, ?_⟩
  simp [hi, isTake_of_isPush hi, okValue, hlen]

theorem takeRing_entry (h : (s.ring r).Inv s.cfg) (m : Half) (hi : isTake r i = true) :
    RingEntry r i s (takeRing r m.toNat s) := by
  have hpush : isPush r i = false := Bool.eq_false_iff.mpr fun hpush => by simp [isTake_of_isPush hpush] at hi
  obtain ⟨k, out, hk, ⟨-, -, -, hcnt⟩, -, hanswered⟩ := takeRing_gives h m
  refine ⟨takeRing_ring ▸ ringDrop_inv h (Nat.min_le_right ..), _, hanswered, ?_⟩
  simp only [hi, hpush, okValue, hcnt, if_true, Bool.false_eq_true, if_false]
  omega

theorem exec_entry (h : (s.ring r).Inv s.cfg) (hi : isPush r i = true ∨ isTake r i = true) (ht : exec i s = .next t) :
    RingEntry r i s t := by
  rcases hi with hpush | htake
  · obtain ⟨n, rfl⟩ := isPush_iff.mp hpush
    rw [exec_pushOf] at ht
    rcases pushRing_cases (r := r) (n := n.toNat) (s := s) with ⟨-, e⟩ | ⟨-, -, e⟩ | ⟨hfit, hlen, e⟩ <;>
      cases ht.symm.trans e
    · exact raiseError_entry h nofun
    · rw [natValue_of_half]
      exact pushed_entry h hlen hfit hpush
  · obtain ⟨n, rfl | rfl⟩ := isTake_iff.mp htake
    · cases ht.symm.trans (exec_popOf r n)
      exact takeRing_entry h n htake
    · rw [exec_popnOf] at ht
      rcases popnRing_cases (r := r) (n := n.toNat) (s := s) with ⟨-, e⟩ | ⟨-, e⟩ <;> cases ht.symm.trans e
      · exact takeRing_entry h n htake
      · exact raiseError_entry h nofun

/-- A run that starts with one transaction more: it ran and answered, and the others ran after it. -/
theorem runAll_cons_eq_some {x : Transaction} {xs : List Transaction} {rs : List Response}
    (h : runAll (x :: xs) s = some (rs, t)) :
    ∃ s1 resp rs', runTransaction x s = .next s1 ∧ s1.out.resp = some resp ∧ runAll xs s1 = some (rs', t) ∧
      rs = resp :: rs' := by
  rw [runAll] at h
  split at h
  next s1 hs1 =>
    split at h
    next resp hresp =>
      obtain ⟨⟨rs', t'⟩, hrest, heq⟩ := Option.map_eq_some_iff.mp h
      obtain ⟨rfl, rfl⟩ := Prod.mk.inj heq
      exact ⟨s1, resp, rs', hs1, hresp, hrest, rfl⟩
    next => cases h
  next => cases h
  next => cases h

theorem sumValues_cons {x : Transaction} (p : Instr → Bool) (hx : decode x.cw = .ok i) (xs : List Transaction)
    (resp : Response) (rs : List Response) :
    sumValues p (x :: xs) (resp :: rs) = (if p i then okValue resp else 0) + sumValues p xs rs := by
  simp only [sumValues, hx]

/-- The account over a sequence of commands, from any count. -/
theorem runAll_balance (xs : List Transaction) {rs : List Response} (h : (s.ring r).Inv s.cfg)
    (hxs : ∀ x ∈ xs, ∃ i, decode x.cw = .ok i ∧ (isPush r i = true ∨ isTake r i = true))
    (hrun : runAll xs s = some (rs, t)) :
    (t.ring r).cnt + sumValues (isTake r) xs rs = (s.ring r).cnt + sumValues (isPush r) xs rs := by
  induction xs generalizing s rs with
  | nil =>
    obtain ⟨rfl, rfl⟩ := Prod.mk.inj (Option.some_inj.mp hrun)
    rfl
  | cons x xs ih =>
    obtain ⟨s1, resp, rs', hs1, hresp, hrest, rfl⟩ := runAll_cons_eq_some hrun
    obtain ⟨i, hx, hi⟩ := hxs x (List.mem_cons_self ..)
    rw [runTransaction_of_decode_ok hx] at hs1
    obtain ⟨hinv, resp', hresp', hbalance⟩ := exec_entry (s := { s with port := x.port }) h hi hs1
    cases hresp.symm.trans hresp'
    have hcfg : s1.cfg = s.cfg := (exec_changesOnly i s1 hs1).surround.1
    have hring : State.ring { s with port := x.port } r = s.ring r := rfl
    rw [hring] at hbalance
    have hsum := ih (hcfg ▸ hinv) (fun y hy => hxs y (List.mem_cons_of_mem _ hy)) hrest
    rw [sumValues_cons _ hx, sumValues_cons _ hx]
    omega

end Sys2Proof.Machine

namespace Sys2Proof.Claims

open Sys2Proof.Machine

/-- Settles O15: each ring operation by what it makes of the content. -/
theorem ringRefinesAByteQueue : Obligations.RingRefinesAByteQueue := by
  unfold Obligations.RingRefinesAByteQueue
  intro r n s _ hinv content
  refine ⟨fun hlen => ?push, ⟨_, exec_popOf r n, takeRing_refines hinv⟩, fun hn => ?popn, ?clear, ?len⟩
  case push =>
    rcases exec_pushOf_cases hlen with ⟨-, e⟩ | ⟨hfit, e⟩
    · exact ⟨_, e, .inr ⟨rfl, by simp [content]⟩⟩
    · refine ⟨_, e, .inl ⟨pushed_answered n, ?_⟩⟩
      simp only [content, pushed_ring]
      exact ringContent_ringAppend hinv (hlen ▸ hfit)
  case popn => exact ⟨_, (exec_popnOf r n).trans (popnRing_of_le hn), takeRing_refines hinv⟩
  case clear =>
    refine ⟨_, exec_clearOf r, ?_⟩
    simp only [content, acknowledge_ring, setRing_ring]
    rfl
  case len =>
    simp only [content, ringContent_length]
    exact exec_lenOf r

/-- Settles O16: the account of a run that starts from an empty ring. -/
theorem lengthIsPushedLessPopped : Obligations.LengthIsPushedLessPopped := by
  unfold Obligations.LengthIsPushedLessPopped
  intro r xs rs s t _ hinv hempty hxs hrun
  have hbalance := runAll_balance xs hinv hxs hrun
  rwa [hempty, Nat.zero_add] at hbalance

/-- Settles O9: the two ways a PUSH with its payload goes. -/
theorem pushAdmitsAllOrNothing : Obligations.PushAdmitsAllOrNothing := by
  unfold Obligations.PushAdmitsAllOrNothing
  intro r n s hinv hlen
  refine ⟨encoded_pushOf r n, ?_⟩
  rcases exec_pushOf_cases hlen with ⟨hfull, e⟩ | ⟨hfit, e⟩
  · refine ⟨_, e, raiseError_onlyRing _, ringEmpty_eq_true_iff, ringFull_eq_true_iff, ?_⟩
    rw [if_pos hfull]
    exact ⟨raiseError_ring .., rfl⟩
  · refine ⟨_, e, pushed_onlyRing, ringEmpty_eq_true_iff, ringFull_eq_true_iff, ?_⟩
    rw [if_neg (Nat.not_lt.mpr hfit), pushed_ring]
    exact ⟨ringAppend_tookBack hinv (hlen ▸ hfit), pushed_answered n⟩

/-- Settles O10: what POP gives, on the one ring. -/
theorem popReturnsTheOldestBytes : Obligations.PopReturnsTheOldestBytes := by
  unfold Obligations.PopReturnsTheOldestBytes
  intro r m s _ hinv
  obtain ⟨k, out, hk, hgave, hfront, hanswered⟩ := takeRing_gives hinv m
  exact ⟨encoded_popOf r m, _, k, out, exec_popOf r m, takeRing_onlyRing, hk, hgave, hfront, hanswered,
    ringEmpty_eq_true_iff, ringFull_eq_true_iff⟩

/-- Settles O11: the bound of POPN, and POP below it. -/
theorem popnIsABoundedPop : Obligations.PopnIsABoundedPop := by
  unfold Obligations.PopnIsABoundedPop
  intro r n s _ hinv
  refine ⟨encoded_popnOf r n, ?_⟩
  rw [exec_popnOf]
  by_cases hn : s.cfg.bufSize < n.toNat
  · refine ⟨_, popnRing_of_lt hn, ?_⟩
    rw [if_pos hn]
    exact ⟨⟨rfl, rfl, rfl, rfl, rfl, rfl⟩, ⟨rfl, rfl, rfl, rfl, rfl, rfl, rfl⟩, rfl⟩
  · refine ⟨_, popnRing_of_le (Nat.not_lt.mp hn), ?_⟩
    rw [if_neg hn]
    exact ⟨exec_popOf r n, takeRing_onlyRing, takeRing_gives hinv n⟩

/-- Settles O14: AVAIL's value is the bound of the PUSH that succeeds. -/
theorem availTellsWhatAPushAdmits : Obligations.AvailTellsWhatAPushAdmits := by
  unfold Obligations.AvailTellsWhatAPushAdmits
  intro r s ⟨⟨_, hcap⟩, _⟩ _
  have hvalue : (natValue (s.cfg.ringCap - (s.ring r).cnt)).toNat = s.cfg.ringCap - (s.ring r).cnt :=
    natValue_toNat (by omega)
  refine ⟨encoded_availOf r, _, exec_availOf r, hvalue, fun n hlen => ?_⟩
  rw [hvalue]
  rcases exec_pushOf_cases hlen with ⟨hfull, e⟩ | ⟨hfit, e⟩
  · refine iff_of_false ?_ (Nat.not_le.mpr hfull)
    rintro ⟨t, ht, hok⟩
    cases e.symm.trans ht
    cases hok
  · exact iff_of_true ⟨_, e, pushed_answered n⟩ hfit

/-- Settles O12: CLEAR puts the reset ring in place of the ring. -/
theorem clearRestoresTheResetRing : Obligations.ClearRestoresTheResetRing := by
  unfold Obligations.ClearRestoresTheResetRing
  intro r s hcap
  refine ⟨encoded_clearOf r, _, exec_clearOf r, (ChangesOnly.refl.setRing rfl _).acknowledge.onlyRing, rfl, ?_⟩
  rw [acknowledge_ring, setRing_ring]
  refine ⟨rfl, rfl, rfl, fun _ => rfl, by cases r <;> rfl, rfl, ?full, rfl⟩
  case full =>
    rw [← Bool.not_eq_true, ringFull_eq_true_iff]
    exact Nat.ne_of_lt hcap

/-- Settles O13: the values of the four queries. -/
theorem ringQueriesReadTheCount : Obligations.RingQueriesReadTheCount := by
  unfold Obligations.RingQueriesReadTheCount
  intro r s ⟨⟨hcap, hcap'⟩, _⟩ hinv rb
  have ⟨_, _, _, hcnt, _⟩ := hinv
  have hlen : (natValue rb.cnt).toNat = rb.cnt := natValue_toNat (hcnt.trans hcap')
  refine ⟨⟨encoded_lenOf r, _, exec_lenOf r, hlen, hlen.symm ▸ hcnt⟩, ⟨encoded_isemptyOf r, exec_isemptyOf r, ?full⟩,
    ⟨encoded_capOf r, _, exec_capOf r, natValue_toNat hcap'⟩, encoded_isfullOf r, exec_isfullOf r⟩
  case full =>
    intro hfull
    refine ⟨wp_eq_rp_of_full hinv hfull, ?_⟩
    have hne : rb.cnt ≠ 0 := by omega
    rw [exec_isemptyOf, if_neg hne]

end Sys2Proof.Claims

/-! The engine moves (42_link_transfer.md R172 to R176): when each is made, what it does, and what an engine may make of
a direction at all. -/

namespace Sys2Proof.Machine

variable {s t : State} {d d' : Dir} {l : Link} {b : Byte} {e : Event}

/-! ### When a move is made -/

theorem moveRxByte_of_enabled (hN : 1 ≤ s.cfg.bufSize) (hon : s.lrx.xs = .active ∧ 0 < s.lrx.rem) :
    moveRxByte b s = .next (s.setLink .rx (rxStored s.cfg b s.lrx)) := by
  rw [moveRxByte, if_pos hon, if_pos (by omega)]

theorem moveRxByte_of_disabled (hoff : ¬ (s.lrx.xs = .active ∧ 0 < s.lrx.rem)) :
    moveRxByte b s = .refused .engineMoveDisabled := if_neg hoff

theorem moveTxByte_of_enabled (htl : s.ltx.tl ≤ s.cfg.bufSize) (hN : 1 ≤ s.cfg.bufSize)
    (hon : s.ltx.xs = .active ∧ 0 < s.ltx.rem) :
    moveTxByte s = .next (emitWire (s.setLink .tx { s.ltx with rem := s.ltx.rem - 1 })
      (Memory.read s.ltx.hb (s.ltx.tl - s.ltx.rem))) := by
  rw [moveTxByte, if_pos hon, if_pos (by omega)]

theorem moveTxByte_of_disabled (hoff : ¬ (s.ltx.xs = .active ∧ 0 < s.ltx.rem)) :
    moveTxByte s = .refused .engineMoveDisabled := if_neg hoff

theorem moveComplete_of_enabled (hon : (s.link d).xs = .active ∧ (s.link d).rem = 0) :
    moveComplete d s = .next (s.setLink d { s.link d with xs := .complete }) := if_pos hon

theorem moveComplete_of_disabled (hoff : ¬ ((s.link d).xs = .active ∧ (s.link d).rem = 0)) :
    moveComplete d s = .refused .engineMoveDisabled := if_neg hoff

theorem moveFault_of_enabled (hon : (s.link d).xs = .active) :
    moveFault d s = .next (s.setLink d { s.link d with xs := .error, ff := true }) := if_pos hon

theorem moveFault_of_disabled (hoff : (s.link d).xs ≠ .active) :
    moveFault d s = .refused .engineMoveDisabled := if_neg hoff

/-- ENG.RXBYTE writes one byte of the receive buffer (R172). -/
theorem rxStored_read {c : Config} (hhb : Memory.wf l.hb) (a : Nat) :
    Memory.read (rxStored c b l).hb a = if a = c.bufSize - l.rem then b else Memory.read l.hb a :=
  Store.read_write hhb

/-! ### What an engine may make of a direction (R176) -/

/-- `l'` is what a move of the engine of direction `d` may make of `l`. -/
structure Link.EngineMoved (d : Dir) (l l' : Link) : Prop where
  active : l.xs = .active
  rc : l'.rc = l.rc
  tl : l'.tl = l.tl
  xs : l'.xs = .active ∨ l'.xs = .complete ∨ l'.xs = .error
  ff : l.ff = true → l'.ff = true
  hb : d = .tx → l'.hb = l.hb

/-- The events that are engine moves. -/
def Event.IsEngineMove (e : Event) : Prop :=
  ∃ b d, e = .engRxByte b ∨ e = .engTxByte ∨ e = .engComplete d ∨ e = .engFault d

/-- An engine move touches one direction and, as ENG.TXBYTE does, the outputs. -/
theorem engineMove_next (he : e.IsEngineMove) (ht : runEvent e s = .next t) :
    ∃ d l o, (s.link d).EngineMoved d l ∧ t = { s.setLink d l with out := o } := by
  obtain ⟨b, d, rfl | rfl | rfl | rfl⟩ := he
  · obtain ⟨hx, -, -, rfl⟩ := moveRxByte_next ht
    exact ⟨.rx, rxStored s.cfg b s.lrx, s.out, ⟨hx, rfl, rfl, .inl hx, id, nofun⟩, rfl⟩
  · obtain ⟨hx, -, rfl⟩ := moveTxByte_next ht
    exact ⟨.tx, { s.ltx with rem := s.ltx.rem - 1 }, _, ⟨hx, rfl, rfl, .inl hx, id, fun _ => rfl⟩, rfl⟩
  · obtain ⟨hx, -, rfl⟩ := moveComplete_next ht
    exact ⟨d, { s.link d with xs := .complete }, s.out, ⟨hx, rfl, rfl, .inr (.inl rfl), id, fun _ => rfl⟩,
      by cases d <;> rfl⟩
  · obtain ⟨hx, rfl⟩ := moveFault_next ht
    exact ⟨d, { s.link d with xs := .error, ff := true }, s.out,
      ⟨hx, rfl, rfl, .inr (.inr rfl), fun _ => rfl, fun _ => rfl⟩, by cases d <;> rfl⟩

/-- A direction after an engine move: moved by the engine, or as it was. -/
theorem engineMove_link (he : e.IsEngineMove) (ht : runEvent e s = .next t) (d : Dir) :
    (s.link d).EngineMoved d (t.link d) ∨ t.link d = s.link d := by
  obtain ⟨d', l, o, hl, rfl⟩ := engineMove_next he ht
  have hout : State.link { s.setLink d' l with out := o } d = (s.setLink d' l).link d := by cases d <;> rfl
  rw [hout]
  by_cases hd : d = d'
  · subst hd
    rw [setLink_link]
    exact .inl hl
  · exact .inr (setLink_link_other s l hd)

end Sys2Proof.Machine

namespace Sys2Proof.Claims

open Sys2Proof.Machine

/-- Settles O27: each move on both sides of its enabling condition. -/
theorem engineMovesAsTheContractSays : Obligations.EngineMovesAsTheContractSays := by
  unfold Obligations.EngineMovesAsTheContractSays
  intro s b d hN htl hhb
  exact ⟨fun hon => ⟨_, moveRxByte_of_enabled hN hon, rfl, rfl, rxStored_read hhb⟩, moveRxByte_of_disabled,
    moveTxByte_of_enabled htl hN, moveTxByte_of_disabled, moveComplete_of_enabled, moveComplete_of_disabled,
    moveFault_of_enabled, moveFault_of_disabled⟩

/-- Settles O28: a direction is moved by the engine or kept, and nothing else of the block is touched. -/
theorem enginesKeepToTheirBuffers : Obligations.EnginesKeepToTheirBuffers := by
  unfold Obligations.EnginesKeepToTheirBuffers
  intro s t e b d d' he ht
  have hmove : e.IsEngineMove := ⟨b, d, he⟩
  have hlink := engineMove_link hmove ht
  have hhb : t.ltx.hb = s.ltx.hb := (hlink .tx).elim (·.hb rfl) (congrArg Link.hb)
  obtain ⟨moved, l, o, hl, rfl⟩ := engineMove_next hmove ht
  have hactive : s.ltx.xs = .active ∨ s.lrx.xs = .active := by
    cases moved
    · exact .inl hl.active
    · exact .inr hl.active
  refine ⟨hactive, ?_⟩
  rcases hlink d' with h | h
  · exact ⟨fun hx => absurd h.active hx, h.rc, h.tl, setLink_rbt .., setLink_rbr .., setLink_fq .., setLink_ann ..,
      fun hx => h.xs.resolve_left (h.active ▸ hx), h.ff, hhb⟩
  · exact ⟨fun _ => h, congrArg _ h, congrArg _ h, setLink_rbt .., setLink_rbr .., setLink_fq .., setLink_ann ..,
      fun hx => absurd (congrArg _ h) hx, fun hff => h ▸ hff, hhb⟩

end Sys2Proof.Claims

/-! The link-transfer commands (42_link_transfer.md R177 to R189) by their cases: what each makes of its direction and
of the ring it reads or feeds, and what it answers. -/

namespace Sys2Proof.Machine

open Sys2Proof.Claims

variable {s t : State} {d : Dir} {n k : Nat}

/-! ### The commands of a direction by name -/

theorem encoded_faultOf (d : Dir) : Encoded (faultOf d) (linkUnit d) 2 0 :=
  encoded_of_encode_eq (by cases d <;> rfl)

theorem encoded_statusOf (d : Dir) : Encoded (statusOf d) (linkUnit d) 3 0 :=
  encoded_of_encode_eq (by cases d <;> rfl)

theorem encoded_retriesOf (d : Dir) : Encoded (retriesOf d) (linkUnit d) 4 0 :=
  encoded_of_encode_eq (by cases d <;> rfl)

theorem exec_faultOf (d : Dir) : exec (faultOf d) s = faultLink d s := by
  cases d <;> rfl

theorem exec_statusOf (d : Dir) : exec (statusOf d) s = .next (responded s .ok true (linkStatus (s.link d))) := by
  cases d <;> rfl

theorem exec_retriesOf (d : Dir) : exec (retriesOf d) s = .next (responded s .ok true (natValue (s.link d).rc)) := by
  cases d <;> rfl

/-- VALUE of STATUS as a number: `4 * ff + xs` (R180). -/
theorem linkStatus_toNat (l : Link) : (linkStatus l).toNat = (if l.ff then 4 else 0) + (tagCode l.xs).toNat := by
  unfold linkStatus
  cases l.ff <;> cases l.xs <;> rfl

/-! ### Starts and restarts (R188) -/

@[simp] theorem startLink_hb (ok : Bool) (l : Link) : (startLink ok l).hb = l.hb := by cases ok <;> rfl
@[simp] theorem startLink_rc (ok : Bool) (l : Link) : (startLink ok l).rc = l.rc := by cases ok <;> rfl
@[simp] theorem startLink_rem (ok : Bool) (l : Link) : (startLink ok l).rem = l.rem := by cases ok <;> rfl
@[simp] theorem startLink_tl (ok : Bool) (l : Link) : (startLink ok l).tl = l.tl := by cases ok <;> rfl
@[simp] theorem startLink_xs (ok : Bool) (l : Link) : (startLink ok l).xs = if ok then .active else .idle := by
  cases ok <;> rfl

theorem startLink_false_of_idle {l : Link} (hx : l.xs = .idle) : startLink false l = { l with ff := false } := by
  rw [startLink, if_neg Bool.false_ne_true, ← hx]

theorem respondStart_of_accepted (hok : s.port.startOk = true) (v : Bool) (val : Half) :
    respondStart s d v val = responded s .ok v val := if_pos hok

theorem respondStart_of_refused (hok : s.port.startOk = false) (v : Bool) (val : Half) :
    respondStart s d v val = responded s (startError d) false 0 := if_neg (by simp [hok])

@[simp] theorem respondStart_ring (v : Bool) (val : Half) (r : Ring) : (respondStart s d v val).ring r = s.ring r := by
  rcases respondStart_cases (s := s) (d := d) v val with ⟨-, e⟩ | ⟨-, e⟩ <;> simp [e]

@[simp] theorem respondStart_link (v : Bool) (val : Half) (d' : Dir) :
    (respondStart s d v val).link d' = s.link d' := by
  rcases respondStart_cases (s := s) (d := d) v val with ⟨-, e⟩ | ⟨-, e⟩ <;> simp [e]

/-! ### LTX.START (R177) -/

theorem Memory.read_writeRun_zero_new {m : Memory} (h : m.wf) {data : List Byte} {i : Nat} {x : Byte}
    (hi : data[i]? = some x) : Memory.read (Memory.writeRun m 0 data) i = x := by
  have hlt : i < data.length := (List.getElem?_eq_some_iff.mp hi).1
  rw [Memory.read, Memory.writeRun, Store.read_writeRun h, if_pos (by omega)]
  simp [List.getD, hi]

theorem Memory.read_writeRun_zero_old {m : Memory} (h : m.wf) {data : List Byte} {i : Nat} (hi : data.length ≤ i) :
    Memory.read (Memory.writeRun m 0 data) i = Memory.read m i := by
  rw [Memory.read, Memory.writeRun, Store.read_writeRun h, if_neg (by omega)]
  rfl

/-- The state after an LTX.START that moved `m` bytes and asked for the start. -/
def txStarted (s : State) (m : Nat) : State :=
  respondStart ((s.setRing .rbt (ringDrop s.cfg s.rbt m)).setLink .tx (startLink s.port.startOk (txLoaded s m))) .tx
    true (natValue m)

theorem txStarted_rbt (m : Nat) : (txStarted s m).rbt = ringDrop s.cfg s.rbt m := by
  rw [txStarted, ← ring_rbt, respondStart_ring]
  rfl

theorem txStarted_ltx (m : Nat) : (txStarted s m).ltx = startLink s.port.startOk (txLoaded s m) := by
  rw [txStarted, ← link_tx, respondStart_link]
  rfl

theorem txStarted_tl (m : Nat) : (txStarted s m).ltx.tl = m := by
  rw [txStarted_ltx, startLink_tl]
  rfl

theorem txStarted_rem (m : Nat) : (txStarted s m).ltx.rem = m := by
  rw [txStarted_ltx, startLink_rem]
  rfl

theorem txStarted_rc (m : Nat) : (txStarted s m).ltx.rc = s.ltx.rc := by
  rw [txStarted_ltx, startLink_rc]
  rfl

theorem txStarted_read_new (hinv : s.rbt.Inv s.cfg) (hhb : Memory.wf s.ltx.hb) {m i : Nat} (hm : m ≤ s.rbt.cnt)
    (hi : i < m) :
    Memory.read (txStarted s m).ltx.hb i = Memory.read s.rbt.mem ((s.rbt.rp + i) % s.cfg.ringCap) := by
  obtain ⟨-, -, hrp, hcnt, -⟩ := hinv
  obtain ⟨-, hfront⟩ := ringFront_frontBytes hrp (hm.trans hcnt)
  rw [txStarted_ltx, startLink_hb]
  exact Memory.read_writeRun_zero_new hhb (hfront i hi)

theorem txStarted_read_old (hhb : Memory.wf s.ltx.hb) {m i : Nat} (hi : m ≤ i) :
    Memory.read (txStarted s m).ltx.hb i = Memory.read s.ltx.hb i := by
  rw [txStarted_ltx, startLink_hb]
  exact Memory.read_writeRun_zero_old hhb (by simpa using hi)

theorem txStarted_answered_of_accepted (hok : s.port.startOk = true) (m : Nat) :
    Answered (txStarted s m) .ok true (natValue m) [] := by
  rw [txStarted, respondStart_of_accepted (by simpa using hok)]
  rfl

theorem txStarted_answered_of_refused (hok : s.port.startOk = false) (m : Nat) :
    Answered (txStarted s m) .writeError false 0 [] := by
  rw [txStarted, respondStart_of_refused (by simpa using hok)]
  rfl

/-- LTX.START leaves every unit but RBT and LTX, and what lies outside the block (20_memory.md R70). -/
theorem ltxStart_frame {len : Half} (ht : exec (.ltxStart len) s = .next t) :
    s.SameSurround t ∧ t.rbr = s.rbr ∧ t.lrx = s.lrx ∧ t.fq = s.fq ∧ t.ann = s.ann := by
  obtain ⟨hsurround, -, hrbr, -, hlrx, hfq, hann⟩ := exec_changesOnly (.ltxStart len) t ht
  simp only [Reaches, reduceCtorEq, exists_const, or_self, imp_false, not_not] at hrbr hlrx hfq hann
  exact ⟨hsurround, hrbr, hlrx, hfq, hann⟩

/-! ### LTX.DONE (R178) and LRX.START (R182) -/

theorem doneTx_of_complete (hx : s.ltx.xs = .complete) :
    doneTx s = .next (responded { s with ltx := { s.ltx with xs := .idle, rc := 0 } } .ok true 1) := if_pos hx

theorem doneTx_of_ne_complete (hx : s.ltx.xs ≠ .complete) : doneTx s = .next (responded s .ok true 0) := if_neg hx

theorem startRx_of_ne_idle (hx : s.lrx.xs ≠ .idle) : startRx s = .next (responded s .illegal false 0) := if_pos hx

theorem startRx_of_idle (hx : s.lrx.xs = .idle) :
    startRx s = .next (respondStart (s.setLink .rx (startLink s.port.startOk
      { s.lrx with tl := s.cfg.bufSize, rem := s.cfg.bufSize })) .rx false 0) := if_neg (not_not_intro hx)

/-! ### FAULT (R179, R184) and the retry law (R187) -/

theorem faultLink_of_ne_error (hx : (s.link d).xs ≠ .error) : faultLink d s = .next (responded s .ok true 0) :=
  if_pos hx

theorem faultLink_of_below_cap (hx : (s.link d).xs = .error) (hrc : (s.link d).rc < s.cfg.retryCap) :
    faultLink d s = .next (respondStart
      (s.setLink d (restartLink s.port.startOk { s.link d with ff := false, rc := (s.link d).rc + 1 })) d true
      (natValue ((s.link d).rc + 1))) := by
  rcases faultLink_cases (s := s) (d := d) with ⟨hne, -⟩ | ⟨-, -, e⟩ | ⟨-, hcap, -⟩
  · exact absurd hx hne
  · exact e
  · omega

theorem faultLink_of_at_cap (hx : (s.link d).xs = .error) (hrc : s.cfg.retryCap ≤ (s.link d).rc) :
    faultLink d s = .next (responded
      (s.setLink d { s.link d with ff := false, rc := 0, xs := .idle }) .retryLimitExceeded false 0) := by
  rcases faultLink_cases (s := s) (d := d) with ⟨hne, -⟩ | ⟨-, hlt, -⟩ | ⟨-, -, e⟩
  · exact absurd hx hne
  · omega
  · exact e

theorem faultLink_of_accepted (hx : (s.link d).xs = .error) (hrc : (s.link d).rc < s.cfg.retryCap)
    (hok : s.port.startOk = true) :
    faultLink d s = .next (responded
      (s.setLink d { s.link d with ff := false, rc := (s.link d).rc + 1, rem := (s.link d).tl, xs := .active }) .ok true
      (natValue ((s.link d).rc + 1))) := by
  rw [faultLink_of_below_cap hx hrc, respondStart_of_accepted (by simpa using hok), hok]
  rfl

theorem faultLink_of_refused (hx : (s.link d).xs = .error) (hrc : (s.link d).rc < s.cfg.retryCap)
    (hok : s.port.startOk = false) :
    faultLink d s = .next (responded
      (s.setLink d { s.link d with ff := false, rc := (s.link d).rc + 1, rem := (s.link d).tl, xs := .idle })
      (startError d) false 0) := by
  rw [faultLink_of_below_cap hx hrc, respondStart_of_refused (by simpa using hok), hok]
  rfl

/-- The state between the two halves of a round of R187: the engine has faulted, `start_ok` is sampled as 1. -/
def faulted (d : Dir) (s : State) : State :=
  let s1 := s.setLink d { s.link d with xs := .error, ff := true }
  { s1 with port := { s1.port with startOk := true } }

@[simp] theorem faulted_link : (faulted d s).link d = { s.link d with xs := .error, ff := true } := by
  cases d <;> rfl

@[simp] theorem faulted_cfg : (faulted d s).cfg = s.cfg := by
  cases d <;> rfl

theorem faultRound_of_active (hx : (s.link d).xs = .active) : faultRound d s = faultLink d (faulted d s) := by
  rw [faultRound, moveFault_of_enabled hx]
  exact exec_faultOf d

/-- A round below the cap: answered with the new counter, and the transfer is Active again. -/
theorem faultRound_below_cap (hx : (s.link d).xs = .active) (hrc : (s.link d).rc = k) (hk : k < s.cfg.retryCap) :
    ∃ t, faultRound d s = .next t ∧ Answered t .ok true (natValue (k + 1)) [] ∧ (t.link d).xs = .active ∧
      (t.link d).rc = k + 1 ∧ t.cfg = s.cfg := by
  subst hrc
  have hround := faultLink_of_accepted (s := faulted d s) (d := d) (by simp) (by simpa using hk) rfl
  simp only [faulted_link] at hround
  refine ⟨_, (faultRound_of_active hx).trans hround, rfl, ?_⟩
  cases d <;> exact ⟨rfl, rfl, rfl⟩

/-- The round at the cap gives the transfer up. -/
theorem faultRound_at_cap (hx : (s.link d).xs = .active) (hrc : s.cfg.retryCap ≤ (s.link d).rc) :
    ∃ t, faultRound d s = .next t ∧ Answered t .retryLimitExceeded false 0 [] ∧ (t.link d).rc = 0 ∧
      (t.link d).xs = .idle := by
  have hround := faultLink_of_at_cap (s := faulted d s) (d := d) (by simp) (by simpa using hrc)
  refine ⟨_, (faultRound_of_active hx).trans hround, rfl, ?_⟩
  cases d <;> exact ⟨rfl, rfl⟩

/-! ### LRX.READ (R183) -/

/-- The bytes that LRX.READ hands over are those of `hb` from index 0. -/
theorem readRun_zero_getElem? (m : Memory) {i : Nat} (hi : i < n) :
    (Memory.readRun m 0 n)[i]? = some (Memory.read m i) := by
  rw [Memory.readRun, Store.readRun_getElem?, if_pos hi, Nat.zero_add]
  rfl

/-- The state after an LRX.READ whose bytes fit. -/
def rxHarvested (s : State) : State :=
  answer ((s.setRing .rbr (ringAppend s.cfg s.rbr (Memory.readRun s.lrx.hb 0 (rxCount s)))).setLink .rx
    { s.lrx with xs := .idle, rc := 0 }) (natValue (rxCount s))

theorem rxHarvested_rbr_tookBack (hinv : s.rbr.Inv s.cfg) (hfit : rxCount s ≤ s.cfg.ringCap - s.rbr.cnt) :
    TookBack s.cfg s.rbr (rxHarvested s).rbr (Memory.readRun s.lrx.hb 0 (rxCount s)) :=
  ringAppend_tookBack hinv (by simpa using hfit)

/-- LRX.READ leaves every unit but RBR and LRX, and what lies outside the block (20_memory.md R70). -/
theorem lrxRead_frame (ht : exec .lrxRead s = .next t) :
    s.SameSurround t ∧ t.rbt = s.rbt ∧ t.ltx = s.ltx ∧ t.fq = s.fq ∧ t.ann = s.ann := by
  obtain ⟨hsurround, hrbt, -, hltx, -, hfq, hann⟩ := exec_changesOnly .lrxRead t ht
  simp only [Reaches, reduceCtorEq, exists_const, or_self, imp_false, not_not] at hrbt hltx hfq hann
  exact ⟨hsurround, hrbt, hltx, hfq, hann⟩

end Sys2Proof.Machine

namespace Sys2Proof.Claims

open Sys2Proof.Machine

/-- Settles O18: the three ways LTX.START goes, and the start accepted or refused. -/
theorem ltxStartLoadsAndStarts : Obligations.LtxStartLoadsAndStarts := by
  unfold Obligations.LtxStartLoadsAndStarts
  intro len s ⟨_, ⟨_, hbufSize⟩, _⟩ hinv hhb
  refine ⟨encoded_of_encode_eq rfl, ?_⟩
  rcases startTx_cases (s := s) (len := len.toNat) with ⟨hx, e⟩ | ⟨hx, hbuf, hcnt, e⟩ | ⟨hx, hroom, e⟩
  all_goals obtain ⟨hsurround, hrbr, hlrx, hfq, hann⟩ := ltxStart_frame (len := len) e
  · refine ⟨_, e, hsurround, hrbr, hlrx, hfq, hann, rfl, ?_⟩
    rw [if_pos hx]
    exact ⟨rfl, rfl, rfl⟩
  · refine ⟨_, e, hsurround, hrbr, hlrx, hfq, hann, rfl, ?_⟩
    rw [if_neg (not_not_intro hx), if_pos ⟨hbuf, hcnt⟩]
    exact ⟨rfl, rfl, rfl⟩
  · obtain ⟨hheld, hsize⟩ := txCount_le (s := s) (n := len.toNat)
    refine ⟨txStarted s (txCount s len.toNat), e, hsurround, hrbr, hlrx, hfq, hann, txStarted_rc _, ?_⟩
    rw [if_neg (not_not_intro hx), if_neg hroom]
    refine ⟨txStarted_rbt _ ▸ ringDrop_gaveFront, fun i => txStarted_read_new hinv hhb hheld,
      fun i => txStarted_read_old hhb, txStarted_tl _, txStarted_rem _, ?_⟩
    rw [txStarted_ltx]
    cases hok : s.port.startOk with
    | true => exact ⟨rfl, rfl, txStarted_answered_of_accepted hok _, natValue_toNat (hsize.trans hbufSize)⟩
    | false => exact ⟨rfl, rfl, txStarted_answered_of_refused hok _⟩

/-- Settles O23: the tag decides, and for a transfer in flight or complete the room in RBR. -/
theorem lrxReadHarvestsIntoTheRing : Obligations.LrxReadHarvestsIntoTheRing := by
  unfold Obligations.LrxReadHarvestsIntoTheRing
  intro s ⟨_, ⟨_, hbufSize⟩, _⟩ hinv
  refine ⟨encoded_of_encode_eq rfl, ?_⟩
  rcases readRx_cases (s := s) with ⟨hx, e⟩ | ⟨hx, e⟩ | ⟨hx, hfull, e⟩ | ⟨hx, hfit, e⟩
  all_goals obtain ⟨hsurround, hrbt, hltx, hfq, hann⟩ := lrxRead_frame e
  · refine ⟨_, e, hsurround, hrbt, hltx, hfq, hann, ?_⟩
    rw [hx]
    exact ⟨rfl, rfl, rfl⟩
  · refine ⟨_, e, hsurround, hrbt, hltx, hfq, hann, ?_⟩
    rw [hx]
    exact ⟨rfl, rfl, rfl⟩
  · refine ⟨_, e, hsurround, hrbt, hltx, hfq, hann, ?_⟩
    rcases hx with hx | hx <;> rw [hx]
    all_goals exact (if_pos hfull).mpr ⟨rfl, rfl, rfl⟩
  · refine ⟨rxHarvested s, e, hsurround, hrbt, hltx, hfq, hann, ?_⟩
    have hcount : (natValue (rxCount s)).toNat = rxCount s := natValue_toNat ((Nat.sub_le ..).trans hbufSize)
    rcases hx with hx | hx <;> rw [hx]
    all_goals exact (if_neg (Nat.not_lt.mpr hfit)).mpr ⟨rfl, rfl, hcount, _, rxHarvested_rbr_tookBack hinv hfit,
      Memory.readRun_length .., fun i => readRun_zero_getElem? _⟩

/-- Settles O25: three rounds below the cap and one at it. -/
theorem fourthFaultExceedsTheCap : Obligations.FourthFaultExceedsTheCap := by
  unfold Obligations.FourthFaultExceedsTheCap
  intro d s ⟨_, _, _, _, _, hcap, _⟩ hx hrc
  obtain ⟨s1, e1, hanswer1, hx1, hrc1, hcfg1⟩ := faultRound_below_cap hx hrc (by omega)
  obtain ⟨s2, e2, hanswer2, hx2, hrc2, hcfg2⟩ := faultRound_below_cap hx1 hrc1 (by rw [hcfg1]; omega)
  obtain ⟨s3, e3, hanswer3, hx3, hrc3, hcfg3⟩ := faultRound_below_cap hx2 hrc2 (by rw [hcfg2, hcfg1]; omega)
  obtain ⟨s4, e4, hanswer4, hrc4, hx4⟩ := faultRound_at_cap hx3 (by rw [hcfg3, hcfg2, hcfg1]; omega)
  exact ⟨s1, s2, s3, s4, e1, e2, e3, e4, hanswer1, hanswer2, hanswer3, hanswer4, hrc4, hx4⟩

/-- Settles O19: DONE on a Complete transfer and on any other. -/
theorem ltxDoneAcknowledges : Obligations.LtxDoneAcknowledges := by
  unfold Obligations.LtxDoneAcknowledges
  exact ⟨encoded_of_encode_eq rfl, fun _ => ⟨doneTx_of_complete, doneTx_of_ne_complete⟩⟩

/-- Settles O20: FAULT outside Error, below the cap by the answer of the engine, and at the cap. -/
theorem faultRestartsOrGivesUp : Obligations.FaultRestartsOrGivesUp := by
  unfold Obligations.FaultRestartsOrGivesUp
  intro d s l
  rw [exec_faultOf]
  refine ⟨encoded_faultOf d, faultLink_of_ne_error, faultLink_of_accepted, fun hx hrc hok => ?refused,
    faultLink_of_at_cap⟩
  case refused =>
    rw [faultLink_of_refused hx hrc hok]
    cases d <;> rfl

/-- Settles O21: the values of the two queries. -/
theorem linkQueriesReadTagFlagAndCounter : Obligations.LinkQueriesReadTagFlagAndCounter := by
  unfold Obligations.LinkQueriesReadTagFlagAndCounter
  intro d s
  refine ⟨encoded_statusOf d, encoded_retriesOf d, ⟨_, exec_statusOf d, ?status⟩, fun hrc =>
    ⟨_, exec_retriesOf d, natValue_toNat (by omega)⟩⟩
  case status =>
    rw [linkStatus_toNat]
    cases (s.link d).xs <;> rfl

/-- Settles O22: LRX.START outside Idle, and from Idle by the answer of the engine. -/
theorem lrxStartArmsTheWholeBuffer : Obligations.LrxStartArmsTheWholeBuffer := by
  unfold Obligations.LrxStartArmsTheWholeBuffer
  refine ⟨encoded_of_encode_eq rfl, fun s => ⟨startRx_of_ne_idle, fun hx hok => ?accepted, fun hx hok => ?refused⟩⟩
  case accepted =>
    refine (startRx_of_idle hx).trans ?_
    rw [respondStart_of_accepted (by simpa using hok), hok]
    rfl
  case refused =>
    refine (startRx_of_idle hx).trans ?_
    rw [respondStart_of_refused (by simpa using hok), hok, startLink_false_of_idle]
    · rfl
    · exact hx

/-- Settles O24: the answer is the line as it was sampled. -/
theorem lrxIdleAnswersTheLine : Obligations.LrxIdleAnswersTheLine := by
  unfold Obligations.LrxIdleAnswersTheLine
  exact ⟨encoded_of_encode_eq rfl, fun _ => rfl⟩

end Sys2Proof.Claims

/-! The transfer tag (42_link_transfer.md R171): which commands move it and how, and that no other event does but an
engine move and reset. -/

namespace Sys2Proof.Machine

open Sys2Proof.Claims

variable {s t : State} {d : Dir} {n : Nat} {i : Instr} {e : Event} {cap rc : Nat} {ok : Bool} {a b : XferTag}

/-- The rows of R171 whose event is command `i`, sampled with `start_ok = ok`: direction `d` goes from tag `a` to tag
`b`. -/
inductive TagMove (cap rc : Nat) (ok : Bool) : Dir → Instr → XferTag → XferTag → Prop
  | startTx (len : Half) (hok : ok = true) : TagMove cap rc ok .tx (.ltxStart len) .idle .active
  | startRx (hok : ok = true) : TagMove cap rc ok .rx .lrxStart .idle .active
  | read (a : XferTag) (ha : a = .active ∨ a = .complete) : TagMove cap rc ok .rx .lrxRead a .idle
  | done : TagMove cap rc ok .tx .ltxDone .complete .idle
  | retry (d : Dir) (hrc : rc < cap) (hok : ok = true) : TagMove cap rc ok d (faultOf d) .error .active
  | retryRefused (d : Dir) (hrc : rc < cap) (hok : ok = false) : TagMove cap rc ok d (faultOf d) .error .idle
  | giveUp (d : Dir) (hrc : cap ≤ rc) : TagMove cap rc ok d (faultOf d) .error .idle

theorem tagRow_of_tagMove {x : Transaction} (hx : decode x.cw = .ok i)
    (h : TagMove cap rc x.port.startOk d i a b) : TagRow cap d (.command x) rc a b := by
  refine .inl ⟨x, i, rfl, hx, ?_⟩
  cases h with
  | startTx len hok => exact .inl ⟨.inl ⟨len, rfl, rfl⟩, rfl, rfl, hok⟩
  | startRx hok => exact .inl ⟨.inr ⟨rfl, rfl⟩, rfl, rfl, hok⟩
  | read a ha => exact .inr (.inl ⟨rfl, rfl, ha, rfl⟩)
  | done => exact .inr (.inr (.inl ⟨rfl, rfl, rfl, rfl⟩))
  | retry d hrc hok => exact .inr (.inr (.inr (.inl ⟨rfl, rfl, hrc, hok, rfl⟩)))
  | retryRefused d hrc hok => exact .inr (.inr (.inr (.inr (.inl ⟨rfl, rfl, hrc, hok, rfl⟩))))
  | giveUp d hrc => exact .inr (.inr (.inr (.inr (.inr ⟨rfl, rfl, hrc, rfl⟩))))

/-- The next state an outcome of command `i` gives, if any, keeps the tag of `d` or moves it by a row of R171. -/
def NextTagMove (d : Dir) (i : Instr) (s : State) (x : Result) : Prop :=
  ∀ t, x = .next t → (t.link d).xs = (s.link d).xs ∨
    TagMove s.cfg.retryCap (s.link d).rc s.port.startOk d i (s.link d).xs (t.link d).xs

theorem nextTagMove_of_xs_eq (h : (t.link d).xs = (s.link d).xs) : NextTagMove d i s (.next t) := by
  rintro u ⟨⟩
  exact .inl h

theorem nextTagMove_next
    (h : TagMove s.cfg.retryCap (s.link d).rc s.port.startOk d i (s.link d).xs (t.link d).xs) :
    NextTagMove d i s (.next t) := by
  rintro u ⟨⟩
  exact .inr h

/-- A start asked in Idle moves the tag where it is accepted. -/
theorem nextTagMove_of_start (hx : (s.link d).xs = .idle)
    (ht : (t.link d).xs = if s.port.startOk then .active else .idle)
    (hrow : s.port.startOk = true → TagMove s.cfg.retryCap (s.link d).rc s.port.startOk d i .idle .active) :
    NextTagMove d i s (.next t) := by
  cases hok : s.port.startOk with
  | true =>
    refine nextTagMove_next ?_
    rw [ht, hx, if_pos hok]
    exact hrow hok
  | false =>
    refine nextTagMove_of_xs_eq ?_
    rw [ht, hx, if_neg (by simp [hok])]

/-! ### The commands that move a tag -/

theorem startTx_nextTagMove (len : Half) : NextTagMove .tx (.ltxStart len) s (startTx len.toNat s) := by
  rcases startTx_cases (s := s) (len := len.toNat) with ⟨-, e⟩ | ⟨-, -, -, e⟩ | ⟨hx, -, e⟩ <;> rw [e]
  · exact nextTagMove_of_xs_eq rfl
  · exact nextTagMove_of_xs_eq rfl
  · exact nextTagMove_of_start hx (by rw [respondStart_link, setLink_link, startLink_xs]) (.startTx len)

theorem startRx_nextTagMove : NextTagMove .rx .lrxStart s (startRx s) := by
  rcases startRx_cases (s := s) with ⟨-, e⟩ | ⟨hx, e⟩ <;> rw [e]
  · exact nextTagMove_of_xs_eq rfl
  · exact nextTagMove_of_start hx (by rw [respondStart_link, setLink_link, startLink_xs]) .startRx

theorem doneTx_nextTagMove : NextTagMove .tx .ltxDone s (doneTx s) := by
  by_cases hx : s.ltx.xs = .complete
  · rw [doneTx_of_complete hx]
    refine nextTagMove_next ?_
    rw [link_tx, hx]
    exact .done
  · rw [doneTx_of_ne_complete hx]
    exact nextTagMove_of_xs_eq rfl

theorem readRx_nextTagMove : NextTagMove .rx .lrxRead s (readRx s) := by
  rcases readRx_cases (s := s) with ⟨-, e⟩ | ⟨-, e⟩ | ⟨-, -, e⟩ | ⟨hx, -, e⟩ <;> rw [e]
  · exact nextTagMove_of_xs_eq rfl
  · exact nextTagMove_of_xs_eq rfl
  · exact nextTagMove_of_xs_eq rfl
  · exact nextTagMove_next (.read _ hx)

theorem faultLink_nextTagMove : NextTagMove d (faultOf d) s (faultLink d s) := by
  rcases faultLink_cases (s := s) (d := d) with ⟨-, e⟩ | ⟨hx, hrc, e⟩ | ⟨hx, hrc, e⟩ <;> rw [e]
  · exact nextTagMove_of_xs_eq (congrArg _ (answer_link ..))
  · refine nextTagMove_next ?_
    rw [respondStart_link, setLink_link, restartLink, startLink_xs, hx]
    cases hok : s.port.startOk with
    | true => exact .retry d hrc rfl
    | false => exact .retryRefused d hrc rfl
  · refine nextTagMove_next ?_
    rw [raiseError_link, setLink_link, hx]
    exact .giveUp d hrc

/-! ### Every command -/

theorem link_eq_of_not_reaches (ht : exec i s = .next t) (hi : ¬ Reaches i (.link d)) : t.link d = s.link d := by
  obtain ⟨-, -, -, hltx, hlrx, -, -⟩ := exec_changesOnly i t ht
  cases d
  · exact not_imp_comm.mp hltx hi
  · exact not_imp_comm.mp hlrx hi

theorem exec_nextTagMove (i : Instr) (d : Dir) : NextTagMove d i s (exec i s) := by
  intro t ht
  by_cases hi : Reaches i (.link d)
  · cases d with
    | tx =>
      obtain ⟨len, rfl⟩ | rfl | rfl := hi
      · exact startTx_nextTagMove len t ht
      · exact doneTx_nextTagMove t ht
      · exact faultLink_nextTagMove t ht
    | rx =>
      obtain rfl | rfl | rfl := hi
      · exact startRx_nextTagMove t ht
      · exact readRx_nextTagMove t ht
      · exact faultLink_nextTagMove t ht
  · exact .inl (congrArg _ (link_eq_of_not_reaches ht hi))

theorem runTransaction_tagRow {x : Transaction} (ht : runTransaction x s = .next t)
    (hne : (t.link d).xs ≠ (s.link d).xs) :
    TagRow s.cfg.retryCap d (.command x) (s.link d).rc (s.link d).xs (t.link d).xs := by
  have hport : State.link { s with port := x.port } d = s.link d := by cases d <;> rfl
  cases hx : decode x.cw with
  | error err =>
    rw [runTransaction_of_decode_error hx] at ht
    cases ht
    rw [raiseError_link, hport] at hne
    exact absurd rfl hne
  | ok i =>
    rw [runTransaction_of_decode_ok hx] at ht
    have hmove := exec_nextTagMove i d t ht
    rw [hport] at hmove
    exact tagRow_of_tagMove hx (hmove.resolve_left hne)

/-! ### The pseudo-operations move no tag -/

/-- The commands that HB.IN, HB.OUT and DISPATCH expand to (43_host_bridge.md R221, R222; 44_fault_queue.md R243). -/
def Issued (i : Instr) : Prop := ∃ n, i = .rbtPush n ∨ i = .rbrPop n ∨ i = .rbrPush n ∨ i = .fqEnq n

theorem not_reaches_link_of_issued (hi : Issued i) (d : Dir) : ¬ Reaches i (.link d) := by
  obtain ⟨n, rfl | rfl | rfl | rfl⟩ := hi
  all_goals cases d <;> simp [Reaches]

/-- Whatever next state an outcome gives has the directions of `s`. -/
def NextKeepsLinks (s : State) (x : Result) : Prop := ∀ t, x = .next t → ∀ d, t.link d = s.link d

theorem issue_keepsLinks (hi : Issued i) (din : List Byte) : NextKeepsLinks s (issue i din s) := by
  intro t ht d
  rw [link_eq_of_not_reaches ht (not_reaches_link_of_issued hi d)]
  cases d <;> rfl

theorem issuePush_keepsLinks (hi : Issued i) (data : List Byte) :
    NextKeepsLinks s (issuePush i data n s) := by
  intro t ht d
  obtain ⟨t1, h1, rfl | ⟨r, rfl⟩⟩ := issuePush_next ht
  · exact issue_keepsLinks hi _ _ h1 d
  · rw [returnBridge_link]
    exact issue_keepsLinks hi _ _ h1 d

theorem hostIn_keepsLinks (enumerated : Bool) (inbound : Option (List Byte)) :
    NextKeepsLinks s (hostIn enumerated inbound s) := by
  unfold hostIn
  split
  · rintro t ⟨⟩ d
    exact returnBridge_link ..
  split
  · rintro t ⟨⟩ d
    exact returnBridge_link ..
  split
  · exact issuePush_keepsLinks ⟨_, .inl rfl⟩ _
  · exact fun _ ht => nomatch ht

theorem hostOutPop_keepsLinks : NextKeepsLinks s (hostOutPop s) := by
  intro t ht d
  obtain ⟨-, t1, h1, ⟨-, rfl⟩ | ⟨r, -, ⟨-, rfl⟩ | ⟨-, rfl⟩⟩⟩ := hostOutPop_next ht
  all_goals have hlink := issue_keepsLinks ⟨_, .inr (.inl rfl)⟩ _ _ h1 d
  · exact hlink
  · rwa [returnBridge_link]
  · rw [← hlink]
    cases d <;> rfl

theorem hostOutWrite_keepsLinks (k : Nat) : NextKeepsLinks s (hostOutWrite k s) := by
  intro t ht d
  obtain ⟨data, -, -, rfl⟩ := hostOutWrite_next ht
  cases d <;> rfl

theorem hostOutRequeue_keepsLinks : NextKeepsLinks s (hostOutRequeue s) := by
  intro t ht d
  obtain ⟨k, rest, -, hpush⟩ := hostOutRequeue_next ht
  rw [issuePush_keepsLinks ⟨_, .inr (.inr (.inl rfl))⟩ _ _ hpush d]
  cases d <;> rfl

/-! ### Every event -/

theorem runEvent_tagRow (ht : runEvent e s = .next t) (hne : (t.link d).xs ≠ (s.link d).xs) :
    e = .blockReset ∨ TagRow s.cfg.retryCap d e (s.link d).rc (s.link d).xs (t.link d).xs := by
  have hmoved : t.link d ≠ s.link d := fun h => hne (congrArg Link.xs h)
  cases e with
  | command x => exact .inr (runTransaction_tagRow ht hne)
  | blockReset => exact .inl rfl
  | hbIn enumerated inbound => exact absurd (hostIn_keepsLinks enumerated inbound t ht d) hmoved
  | hbOut => exact absurd (hostOutPop_keepsLinks t ht d) hmoved
  | hbOutWrite k => exact absurd (hostOutWrite_keepsLinks k t ht d) hmoved
  | hbOutRequeue => exact absurd (hostOutRequeue_keepsLinks t ht d) hmoved
  | dispatch f => exact absurd (issue_keepsLinks ⟨_, .inr (.inr (.inr rfl))⟩ [] t ht d) hmoved
  | engRxByte v =>
    obtain ⟨-, -, -, rfl⟩ := moveRxByte_next ht
    cases d <;> exact absurd rfl hne
  | engTxByte =>
    obtain ⟨-, -, rfl⟩ := moveTxByte_next ht
    cases d <;> exact absurd rfl hne
  | engComplete d' =>
    obtain ⟨hx, -, rfl⟩ := moveComplete_next ht
    by_cases hd : d = d'
    · subst hd
      rw [setLink_link]
      exact .inr (.inr (.inl ⟨rfl, hx, rfl⟩))
    · exact absurd (setLink_link_other s _ hd) hmoved
  | engFault d' =>
    obtain ⟨hx, rfl⟩ := moveFault_next ht
    by_cases hd : d = d'
    · subst hd
      rw [setLink_link]
      exact .inr (.inr (.inr ⟨rfl, hx, rfl⟩))
    · exact absurd (setLink_link_other s _ hd) hmoved

end Sys2Proof.Machine

namespace Sys2Proof.Claims

open Sys2Proof.Machine

/-- Settles O26: the event at the head of the agenda moves the tag by a row, or is a reset. -/
theorem tagsMoveOnlyAsTheTableSays : Obligations.TagsMoveOnlyAsTheTableSays := by
  unfold Obligations.TagsMoveOnlyAsTheTableSays
  intro s t e rest d hs ht hne
  have hbegin : (s.begin rest).link d = s.link d := by cases d <;> rfl
  rw [step_of_agenda_cons hs] at ht
  rw [← hbegin] at hne ⊢
  exact runEvent_tagRow (s := s.begin rest) ht hne

end Sys2Proof.Claims

/-! The host bridge (43_host_bridge.md R221, R222): HB.IN and the re-enqueue of HB.OUT as a PUSH of their bytes, the POP
of HB.OUT by the content of RBR, and its write. -/

namespace Sys2Proof.Machine

open Sys2Proof.Claims

variable {s : State} {r : Ring} {data rest p : List Byte} {a n : Nat} {i : Instr}

/-! ### A command issued with its payload -/

/-- The state on which a pseudo-operation issues a command: `din` is offered as payload. -/
def offered (din : List Byte) (s : State) : State := { s with port := { s.port with din := din } }

theorem issue_eq_exec_offered (din : List Byte) : issue i din s = exec i (offered din s) := rfl

@[simp] theorem offered_din (din : List Byte) : (offered din s).port.din = din := rfl
@[simp] theorem offered_cfg (din : List Byte) : (offered din s).cfg = s.cfg := rfl
@[simp] theorem offered_ring (din : List Byte) : (offered din s).ring r = s.ring r := by cases r <;> rfl

/-- The state after a PUSH of `data` that was refused, and the bridge's return. -/
def pushRefused (data : List Byte) (s : State) : State :=
  returnBridge (raiseError (offered data s) .bufferOverflow) .bufferOverflow

/-- The state after a PUSH of `data` that was admitted to ring `r`, and the bridge's return of `n`. -/
def pushAdmitted (r : Ring) (data : List Byte) (n : Nat) (s : State) : State :=
  returnBridge (pushed r (natValue data.length) (offered data s)) (.ok n)

@[simp] theorem pushRefused_ring : (pushRefused data s).ring r = s.ring r := by simp [pushRefused]

@[simp] theorem pushAdmitted_ring :
    (pushAdmitted r data n s).ring r = ringAppend s.cfg (s.ring r) data := by simp [pushAdmitted]

theorem pushAdmitted_tookBack (h : (s.ring r).Inv s.cfg) (hfit : data.length ≤ s.cfg.ringCap - (s.ring r).cnt) :
    TookBack s.cfg (s.ring r) ((pushAdmitted r data n s).ring r) data := by
  rw [pushAdmitted_ring]
  exact ringAppend_tookBack h hfit

theorem pushAdmitted_content (h : (s.ring r).Inv s.cfg) (hfit : data.length ≤ s.cfg.ringCap - (s.ring r).cnt) :
    ringContent s.cfg ((pushAdmitted r data n s).ring r) = ringContent s.cfg (s.ring r) ++ data := by
  rw [pushAdmitted_ring]
  exact ringContent_ringAppend h hfit

theorem pushRefused_outsideRbr : OutsideRbr s (pushRefused data s) := ⟨rfl, rfl, rfl, rfl, rfl, rfl, rfl⟩

theorem pushAdmitted_outsideRbr : OutsideRbr s (pushAdmitted .rbr data n s) := ⟨rfl, rfl, rfl, rfl, rfl, rfl, rfl⟩

/-- Everything the bridge's PUSH can do with bytes that ARG can count (R140): it is the whole of `data` or nothing. -/
theorem issuePush_pushOf_cases (hlen : data.length ≤ 65535) :
    (s.cfg.ringCap - (s.ring r).cnt < data.length ∧
      issuePush (pushOf r (natValue data.length)) data n s = .next (pushRefused data s)) ∨
    (data.length ≤ s.cfg.ringCap - (s.ring r).cnt ∧
      issuePush (pushOf r (natValue data.length)) data n s = .next (pushAdmitted r data n s)) := by
  have hcases := exec_pushOf_cases (r := r) (s := offered data s) (natValue_toNat hlen).symm
  rw [natValue_toNat hlen, offered_cfg, offered_ring] at hcases
  unfold issuePush
  rw [issue_eq_exec_offered]
  rcases hcases with ⟨hfull, e⟩ | ⟨hfit, e⟩
  · exact .inl ⟨hfull, by rw [e]; rfl⟩
  · exact .inr ⟨hfit, by rw [e]; rfl⟩

/-! ### HB.IN (R221) -/

theorem hostIn_not_enumerated (inbound : Option (List Byte)) :
    hostIn false inbound s = .next (returnBridge s (.ok 0)) := rfl

theorem hostIn_no_packet : hostIn true none s = .next (returnBridge s (.ok 0)) := rfl

/-- Everything HB.IN can do with a packet of 1 to PKT bytes: it is the PUSH of the packet. -/
theorem hostIn_packet_cases (hcfg : s.cfg.wf) (hpos : 1 ≤ p.length) (hpkt : p.length ≤ s.cfg.pktSize) :
    (s.cfg.ringCap - s.rbt.cnt < p.length ∧ hostIn true (some p) s = .next (pushRefused p s)) ∨
    (p.length ≤ s.cfg.ringCap - s.rbt.cnt ∧ hostIn true (some p) s = .next (pushAdmitted .rbt p p.length s)) := by
  obtain ⟨-, -, ⟨-, hmax⟩, -⟩ := hcfg
  have hpush : hostIn true (some p) s = issuePush (pushOf .rbt (natValue p.length)) p p.length s := by
    simp [hostIn, packetInRange, hpos, hpkt, pushOf]
  rw [hpush]
  exact issuePush_pushOf_cases (r := .rbt) (hpkt.trans hmax)

/-! ### HB.OUT (R222) -/

/-- The state after the POP with which HB.OUT begins. -/
def hostPopped (s : State) : State := takeRing .rbr s.cfg.pktSize (offered [] s)

theorem hostPopped_rbr_content (h : s.rbr.Inv s.cfg) :
    ringContent s.cfg (hostPopped s).rbr = (ringContent s.cfg s.rbr).drop s.cfg.pktSize :=
  (takeRing_refines (r := .rbr) (s := offered [] s) h).2

theorem hostPopped_answered (h : s.rbr.Inv s.cfg) :
    ∃ v, Answered (hostPopped s) .ok true v ((ringContent s.cfg s.rbr).take s.cfg.pktSize) :=
  ⟨_, (takeRing_refines (r := .rbr) (s := offered [] s) h).1⟩

theorem hostPopped_outsideRbr : OutsideRbr s (hostPopped s) := ⟨rfl, rfl, rfl, rfl, rfl, rfl, rfl⟩

theorem issue_rbrPop (hpkt : s.cfg.pktSize ≤ 65535) :
    issue (.rbrPop (natValue s.cfg.pktSize)) [] s = .next (hostPopped s) := by
  have hpop := exec_popOf (s := offered [] s) .rbr (natValue s.cfg.pktSize)
  rwa [natValue_toNat hpkt] at hpop

theorem ringContent_take_eq_nil_iff {c : Config} {rb : RingBuf} (hn : 1 ≤ n) :
    (ringContent c rb).take n = [] ↔ rb.cnt = 0 := by
  rw [List.take_eq_nil_iff, ← List.length_eq_zero_iff, ringContent_length]
  omega

/-- Everything HB.OUT's POP can do while no HB.OUT is in progress: RBR is empty, or its front is staged. -/
theorem hostOutPop_cases (hcfg : s.cfg.wf) (h : s.rbr.Inv s.cfg) (hidle : s.staging = .idle) :
    (s.rbr.cnt = 0 ∧ hostOutPop s = .next (returnBridge (hostPopped s) (.ok 0))) ∨
    (s.rbr.cnt ≠ 0 ∧ hostOutPop s =
      .next { hostPopped s with staging := .staged ((ringContent s.cfg s.rbr).take s.cfg.pktSize) }) := by
  obtain ⟨-, -, ⟨hpos, hmax⟩, -⟩ := hcfg
  obtain ⟨v, hanswered⟩ := hostPopped_answered h
  have hnil := ringContent_take_eq_nil_iff (c := s.cfg) (rb := s.rbr) hpos
  unfold hostOutPop
  rw [hidle, issue_rbrPop hmax]
  dsimp only
  rw [hanswered]
  by_cases hcnt : s.rbr.cnt = 0
  · exact .inl ⟨hcnt, if_pos (hnil.mpr hcnt)⟩
  · exact .inr ⟨hcnt, if_neg (mt hnil.mp hcnt)⟩

theorem hostOutWrite_of_staged (hstaged : s.staging = .staged data) (ha : a ≤ data.length) :
    hostOutWrite a s = .next { s with
      staging := if a < data.length then .taken a (data.drop a) else .idle
      out := { s.out with
        toHost := data.take a
        bridge := if a < data.length then s.out.bridge else some (.ok a) } } := by
  simp only [hostOutWrite, hstaged, acceptedInRange, ha, decide_true, if_true]
  by_cases hmore : a < data.length
  · simp only [hmore, if_true]
  · simp only [hmore, if_false, returnBridge]

/-- Everything HB.OUT's re-enqueue can do: it is the PUSH of the remainder, with the staging area freed. -/
theorem hostOutRequeue_cases (hcfg : s.cfg.wf) (hheld : s.staging.held ≤ s.cfg.pktSize)
    (htaken : s.staging = .taken a rest) :
    (s.cfg.ringCap - s.rbr.cnt < rest.length ∧
      hostOutRequeue s = .next (pushRefused rest { s with staging := .idle })) ∨
    (rest.length ≤ s.cfg.ringCap - s.rbr.cnt ∧
      hostOutRequeue s = .next (pushAdmitted .rbr rest a { s with staging := .idle })) := by
  obtain ⟨-, -, ⟨-, hmax⟩, -⟩ := hcfg
  rw [htaken, held_taken] at hheld
  have hpush : hostOutRequeue s =
      issuePush (pushOf .rbr (natValue rest.length)) rest a { s with staging := .idle } := by
    simp only [hostOutRequeue, htaken, pushOf]
  rw [hpush]
  exact issuePush_pushOf_cases (r := .rbr) (s := { s with staging := .idle }) (by omega)

end Sys2Proof.Machine

namespace Sys2Proof.Claims

open Sys2Proof.Machine

/-- Settles O50: with a packet of 1 to PKT bytes HB.IN is a PUSH to RBT, which admits all of it or nothing. -/
theorem hostInAdmitsWholePackets : Obligations.HostInAdmitsWholePackets := by
  unfold Obligations.HostInAdmitsWholePackets
  intro s hcfg hinv
  refine ⟨hostIn_not_enumerated, hostIn_no_packet, fun p hpos hpkt => ?_⟩
  rcases hostIn_packet_cases hcfg hpos hpkt with ⟨hfull, e⟩ | ⟨hfit, e⟩
  · refine ⟨_, e, rfl, rfl, rfl, rfl, rfl, rfl, rfl, rfl, ?_⟩
    rw [if_pos hfull]
    exact ⟨pushRefused_ring (r := .rbt), rfl⟩
  · refine ⟨_, e, rfl, rfl, rfl, rfl, rfl, rfl, rfl, rfl, ?_⟩
    rw [if_neg (Nat.not_lt.mpr hfit)]
    exact ⟨pushAdmitted_tookBack (r := .rbt) hinv hfit, rfl⟩

/-- Settles O51: the POP by whether RBR is empty, the write, and the re-enqueue as a PUSH to RBR. -/
theorem hostOutDrainsAndReenqueues : Obligations.HostOutDrainsAndReenqueues := by
  unfold Obligations.HostOutDrainsAndReenqueues
  intro s hcfg hinv hheld
  refine ⟨fun hidle => ?pop, fun data a => hostOutWrite_of_staged, fun a rest htaken => ?requeue⟩
  case pop =>
    have hcontent := hostPopped_rbr_content hinv
    rcases hostOutPop_cases hcfg hinv hidle with ⟨hcnt, e⟩ | ⟨hcnt, e⟩
    · refine ⟨_, e, hcontent, hostPopped_outsideRbr, rfl, ?_⟩
      rw [if_pos hcnt]
      exact ⟨hidle, rfl⟩
    · refine ⟨_, e, hcontent, hostPopped_outsideRbr, rfl, ?_⟩
      rw [if_neg hcnt]
      exact ⟨rfl, rfl⟩
  case requeue =>
    rcases hostOutRequeue_cases hcfg hheld htaken with ⟨hfull, e⟩ | ⟨hfit, e⟩
    · refine ⟨_, e, rfl, pushRefused_outsideRbr, rfl, ?_⟩
      rw [if_pos hfull]
      exact ⟨pushRefused_ring (r := .rbr), rfl⟩
    · refine ⟨_, e, rfl, pushAdmitted_outsideRbr, rfl, ?_⟩
      rw [if_neg (Nat.not_lt.mpr hfit)]
      exact ⟨pushAdmitted_content (r := .rbr) (s := { s with staging := .idle }) (n := a) hinv hfit, rfl⟩

end Sys2Proof.Claims

/-! The fault queue (44_fault_queue.md R240 to R246): FQ.ENQ by the room in the queue, FQ.DEQ by its head, and DISPATCH
as the FQ.ENQ of a fault's code. -/

namespace Sys2Proof.Machine

open Sys2Proof.Claims

variable {s t : State} {code : Half} {q : List Half}

/-! ### FQ.ENQ and FQ.DEQ -/

/-- FQ.ENQ at the 256 entries that R8 fixes for the queue. -/
theorem enqueueCode_of_wf (hcfg : s.cfg.wf) (code : Half) :
    enqueueCode code s =
      if s.fq.length < 256 then .next (responded { s with fq := s.fq ++ [code] } .ok false 0)
      else .next (responded s .queueFull false 0) := by
  obtain ⟨-, -, -, hcap, -⟩ := hcfg
  rw [← hcap]
  rfl

theorem dequeueCode_of_empty (hq : s.fq = []) : dequeueCode s = .next (responded s .ok false 0) := by
  simp only [dequeueCode, hq]
  rfl

theorem dequeueCode_of_cons (hq : s.fq = code :: q) :
    dequeueCode s = .next (responded { s with fq := q } .ok true code) := by
  simp only [dequeueCode, hq]
  rfl

/-- The queue that FQ.ENQ leaves, whether or not the code was dropped. -/
theorem enqueueCode_next (hcfg : s.cfg.wf) (code : Half) : ∃ t, enqueueCode code s = .next t ∧
    t.fq = if s.fq.length < 256 then s.fq ++ [code] else s.fq := by
  rw [enqueueCode_of_wf hcfg]
  by_cases hroom : s.fq.length < 256
  · rw [if_pos hroom, if_pos hroom]
    exact ⟨_, rfl, rfl⟩
  · rw [if_neg hroom, if_neg hroom]
    exact ⟨_, rfl, rfl⟩

/-! ### DISPATCH (R243) -/

/-- DISPATCH is the FQ.ENQ of the code of the fault, with no payload offered. -/
theorem runEvent_dispatch (f : SubsystemFault) (s : State) :
    runEvent (.dispatch f) s = enqueueCode (Config.codeOf f (centralFault f)) (offered [] s) := rfl

theorem ChangesOnly.outsideQueue (h : ChangesOnly (.queue = ·) s t) :
    t.rbt = s.rbt ∧ t.rbr = s.rbr ∧ t.ltx = s.ltx ∧ t.lrx = s.lrx ∧ t.ann = s.ann ∧ s.SameSurround t :=
  ⟨not_imp_comm.mp h.rbt nofun, not_imp_comm.mp h.rbr nofun, not_imp_comm.mp h.ltx nofun,
    not_imp_comm.mp h.lrx nofun, not_imp_comm.mp h.ann nofun, h.surround⟩

end Sys2Proof.Machine

namespace Sys2Proof.Claims

open Sys2Proof.Machine

/-- Settles O29: FQ.ENQ by whether the queue holds fewer than 256 entries. -/
theorem enqueueAppendsOrDrops : Obligations.EnqueueAppendsOrDrops := by
  unfold Obligations.EnqueueAppendsOrDrops
  exact fun code s hcfg => ⟨encoded_of_encode_eq rfl, enqueueCode_of_wf hcfg code⟩

/-- Settles O30: FQ.DEQ on an empty queue and on one with a head. -/
theorem dequeueTakesTheHead : Obligations.DequeueTakesTheHead := by
  unfold Obligations.DequeueTakesTheHead
  exact ⟨encoded_of_encode_eq rfl, fun _ => ⟨dequeueCode_of_empty, fun _ _ => dequeueCode_of_cons⟩⟩

/-- Settles O52: DISPATCH is an FQ.ENQ, which reaches the queue alone, and `centralFault` is R245's table. -/
theorem dispatchOnlyEnqueues : Obligations.DispatchOnlyEnqueues := by
  unfold Obligations.DispatchOnlyEnqueues
  intro f s hcfg
  obtain ⟨t, e, hqueue⟩ := enqueueCode_next (s := offered [] s) hcfg (Config.codeOf f (centralFault f))
  obtain ⟨hrbt, hrbr, hltx, hlrx, hann, hcfgEq, -, hstaging, hagenda, -⟩ :=
    (enqueueCode_changesOnly rfl _ t e).outsideQueue
  refine ⟨t, (runEvent_dispatch f s).trans e, ?image, hrbt, hrbr, hltx, hlrx, hann, hcfgEq, hstaging, hagenda⟩
  case image =>
    cases f with
    | ringBuffer v => cases v <;> exact hqueue
    | dma | usb | led | uart | device | initialization => exact hqueue

end Sys2Proof.Claims

/-! The code encoder (45_code_encoder.md R260 to R264): the divisor loop of R263 against the decimal digits and their
pattern rows, and the shape of what it emits. -/

namespace Sys2Proof.Machine

open Sys2Proof.Claims

variable {c : Config} {n v d : Nat} {ds : List Nat} {syms : List Symbol}

/-! ### The decimal digits (R124) -/

/-- The weights of the `n` lowest decimal digits, greatest first. -/
def weights (n : Nat) : List Nat := (List.range n).reverse.map (10 ^ ·)

theorem divisors_eq_weights : divisors = weights 5 := rfl

@[simp] theorem weights_zero : weights 0 = [] := rfl

theorem weights_succ (n : Nat) : weights (n + 1) = 10 ^ n :: weights n := by
  simp [weights, List.range_succ]

theorem digits_eq_map_digitAt (v : Nat) :
    Nat.digits 10 v = (List.range (Nat.digits 10 v).length).map fun i => digitAt v (10 ^ i) := by
  refine List.ext_getElem (by simp) fun i hi _ => ?_
  rw [List.getElem_map, List.getElem_range, ← List.getD_eq_getElem _ 0 hi]
  exact Nat.getD_digits v i (by decide)

/-- The digits at the weights up to `10 ^ n` are the decimal digits of `v`, where `v` has a digit at that weight or is
read at weight 1 alone. -/
theorem decimalDigits_eq_map_digitAt (hlead : n = 0 ∨ 10 ^ n ≤ v) (hlt : v < 10 ^ (n + 1)) :
    decimalDigits v = (weights (n + 1)).map (digitAt v) := by
  by_cases hv : v = 0
  · obtain rfl : n = 0 := hlead.resolve_right fun hle =>
      absurd (hle.trans_eq hv) (Nat.pow_pos (by decide)).not_ge
    subst hv
    rfl
  · have hle : 10 ^ n ≤ v := hlead.elim (fun h => h ▸ Nat.one_le_iff_ne_zero.mpr hv) id
    have hlen : (Nat.digits 10 v).length = n + 1 :=
      le_antisymm ((Nat.digits_length_le_iff (by decide) v).mpr hlt) ((Nat.lt_digits_length_iff (by decide) v).mpr hle)
    rw [decimalDigits, if_neg hv, digits_eq_map_digitAt, hlen, ← List.map_reverse, weights, List.map_map]
    rfl

theorem decimalDigits_length_pos (v : Nat) : 0 < (decimalDigits v).length := by
  unfold decimalDigits
  split
  · exact Nat.one_pos
  next hv =>
    rw [List.length_reverse]
    exact List.length_pos_of_ne_nil (Nat.digits_ne_nil_iff_ne_zero.mpr hv)

theorem decimalDigits_length_le (hn : 0 < n) (hlt : v < 10 ^ n) : (decimalDigits v).length ≤ n := by
  unfold decimalDigits
  split
  · exact hn
  · rw [List.length_reverse]
    exact (Nat.digits_length_le_iff (by decide) v).mpr hlt

theorem half_lt_ten_pow (v : Half) : v.toNat < 10 ^ 5 := v.isLt.trans (by decide)

/-- A leading digit is 0 exactly where the number lies below its weight. -/
theorem digitAt_lead_eq_zero_iff (hlt : v < 10 ^ (n + 1)) : digitAt v (10 ^ n) = 0 ↔ v < 10 ^ n := by
  have hpos : 0 < 10 ^ n := Nat.pow_pos (by decide)
  rw [digitAt, Nat.mod_eq_of_lt (Nat.div_lt_of_lt_mul (pow_succ 10 n ▸ hlt)), Nat.div_eq_zero_iff]
  omega

/-! ### The divisor loop (R263) -/

/-- `syms`, or the length error where that is longer than SEQMAX. -/
def ifFits (c : Config) (syms : List Symbol) : Option (List Symbol) :=
  if syms.length ≤ c.seqMax then some syms else none

theorem ifFits_eq_some (h : syms.length ≤ c.seqMax) : ifFits c syms = some syms := if_pos h

theorem ifFits_eq_none (h : c.seqMax < syms.length) : ifFits c syms = none := if_neg h.not_ge

/-- The pattern row of the digit of `v` at weight `d`. -/
def digitRow (c : Config) (v d : Nat) : List Symbol := rowSymbols (patRow c (digitAt v d))

@[simp] theorem digitRow_length : (digitRow c v d).length = 5 := rfl

/-- One turn of the loop moves the next row, with its gap, to what is emitted. -/
theorem intercalate_emit (syms row : List Symbol) (rows : List (List Symbol)) :
    List.intercalate [Symbol.gap] (syms :: row :: rows) =
      List.intercalate [Symbol.gap] ((syms ++ [.gap] ++ row) :: rows) := by
  cases rows <;> simp [List.intercalate_cons_cons]

theorem length_le_length_intercalate (syms : List Symbol) (rows : List (List Symbol)) :
    syms.length ≤ (List.intercalate [Symbol.gap] (syms :: rows)).length := by
  cases rows <;> simp [List.intercalate_cons_cons]

/-- Once a digit has been emitted, the loop emits the row of every weight that is left, a gap before each. -/
theorem encodeFrom_started (hsyms : syms.length ≤ c.seqMax) (ds : List Nat) :
    encodeFrom c v ds syms true = ifFits c (List.intercalate [Symbol.gap] (syms :: ds.map (digitRow c v))) := by
  induction ds generalizing syms with
  | nil =>
    rw [List.map_nil, List.intercalate_singleton, ifFits_eq_some hsyms]
    rfl
  | cons d ds ih =>
    have hlen : (syms ++ [Symbol.gap] ++ digitRow c v d).length = syms.length + 6 := by simp
    rw [List.map_cons, intercalate_emit, encodeFrom, if_neg nofun]
    by_cases hlong : c.seqMax < syms.length + 6
    · rw [ifFits_eq_none ((hlen ▸ hlong).trans_le (length_le_length_intercalate ..))]
      exact if_pos hlong
    · rw [← ih (hlen ▸ not_lt.mp hlong)]
      exact if_neg hlong

/-- The first digit emitted is followed by all the others. -/
theorem encodeFrom_emit (hfirst : ¬ (digitAt v d = 0 ∧ d ≠ 1)) :
    encodeFrom c v (d :: ds) [] false = ifFits c (List.intercalate [Symbol.gap] ((d :: ds).map (digitRow c v))) := by
  rw [encodeFrom, if_neg fun ⟨hzero, _, hd⟩ => hfirst ⟨hzero, hd⟩, List.map_cons]
  by_cases hlong : c.seqMax < 5
  · rw [ifFits_eq_none (hlong.trans_le (length_le_length_intercalate (digitRow c v d) _))]
    exact if_pos hlong
  · rw [← encodeFrom_started (not_lt.mp hlong)]
    exact if_neg hlong

theorem encodeFrom_skip (hzero : digitAt v d = 0) (hd : d ≠ 1) :
    encodeFrom c v (d :: ds) [] false = encodeFrom c v ds [] false := by
  rw [encodeFrom, if_pos ⟨hzero, rfl, hd⟩]

theorem opticalSequence_eq_intercalate_digitRow (hlead : n = 0 ∨ 10 ^ n ≤ v) (hlt : v < 10 ^ (n + 1)) :
    opticalSequence c v = List.intercalate [Symbol.gap] ((weights (n + 1)).map (digitRow c v)) := by
  rw [opticalSequence, decimalDigits_eq_map_digitAt hlead hlt, List.map_map]
  rfl

/-- The loop over the weights of `n + 1` digits: it passes over a leading zero, and from the first digit that stays it
spells the number. -/
theorem encodeFrom_weights (hlt : v < 10 ^ (n + 1)) :
    encodeFrom c v (weights (n + 1)) [] false = ifFits c (opticalSequence c v) := by
  induction n with
  | zero =>
    rw [opticalSequence_eq_intercalate_digitRow (.inl rfl) hlt, weights_succ]
    exact encodeFrom_emit fun h => h.2 rfl
  | succ n ih =>
    have hzero := digitAt_lead_eq_zero_iff hlt
    rw [weights_succ (n + 1)]
    by_cases hsmall : v < 10 ^ (n + 1)
    · have hweight : 10 ^ (n + 1) ≠ 1 := (Nat.one_lt_pow n.succ_ne_zero (by decide)).ne'
      rw [encodeFrom_skip (hzero.mpr hsmall) hweight, ih hsmall]
    · rw [opticalSequence_eq_intercalate_digitRow (.inr (not_lt.mp hsmall)) hlt, weights_succ (n + 1)]
      exact encodeFrom_emit fun h => hsmall (hzero.mp h.1)

theorem encodeCode_eq_ifFits (c : Config) (v : Half) : encodeCode c v = ifFits c (opticalSequence c v.toNat) :=
  encodeFrom_weights (half_lt_ten_pow v)

/-! ### The shape of an optical sequence (R264) -/

/-- `n` pattern rows with one gap between consecutive rows. -/
inductive Spelled : Nat → List Symbol → Prop where
  | row (p : PatRow) : Spelled 1 (rowSymbols p)
  | cons (p : PatRow) {n : Nat} {syms : List Symbol} : Spelled n syms → Spelled (n + 1) (rowSymbols p ++ .gap :: syms)

theorem spelled_intercalate (c : Config) (g : Nat) (gs : List Nat) : Spelled (gs.length + 1)
    (List.intercalate [Symbol.gap] ((g :: gs).map fun g => rowSymbols (patRow c g))) := by
  induction gs generalizing g with
  | nil => exact .row _
  | cons g' gs ih =>
    rw [List.map_cons, List.map_cons, List.intercalate_cons_cons, List.append_assoc]
    exact .cons _ (ih g')

theorem spelled_opticalSequence (c : Config) (v : Nat) :
    Spelled (decimalDigits v).length (opticalSequence c v) := by
  unfold opticalSequence
  have hpos := decimalDigits_length_pos v
  generalize decimalDigits v = gs at hpos ⊢
  cases gs with
  | nil => exact absurd hpos (lt_irrefl 0)
  | cons g gs => exact spelled_intercalate c g gs

theorem markSymbol_eq_dot_or_dash (m : Mark) : markSymbol m = .dot ∨ markSymbol m = .dash := by
  cases m
  · exact .inl rfl
  · exact .inr rfl

theorem dot_or_dash_of_mem_rowSymbols {p : PatRow} {x : Symbol} (hx : x ∈ rowSymbols p) : x = .dot ∨ x = .dash := by
  simp only [rowSymbols, List.mem_cons, List.not_mem_nil, or_false] at hx
  obtain rfl | rfl | rfl | rfl | rfl := hx <;> exact markSymbol_eq_dot_or_dash _

namespace Spelled

theorem length_succ (h : Spelled n syms) : syms.length + 1 = 6 * n := by
  induction h with
  | row p => rfl
  | cons p _ ih =>
    simp only [List.length_append, List.length_cons, rowSymbols_length]
    omega

theorem invalid_not_mem (h : Spelled n syms) : Symbol.invalid ∉ syms := by
  have hrow (p : PatRow) : Symbol.invalid ∉ rowSymbols p := fun hx => by
    simpa using dot_or_dash_of_mem_rowSymbols hx
  induction h with
  | row p => exact hrow p
  | cons p _ ih => simp [hrow p, ih]

theorem head?_eq (h : Spelled n syms) : syms.head? = some .dot ∨ syms.head? = some .dash := by
  cases h with
  | row p => exact (markSymbol_eq_dot_or_dash p.m0).imp (congrArg some) (congrArg some)
  | cons p _ => exact (markSymbol_eq_dot_or_dash p.m0).imp (congrArg some) (congrArg some)

theorem getLast?_eq (h : Spelled n syms) : syms.getLast? = some .dot ∨ syms.getLast? = some .dash := by
  induction h with
  | row p => exact (markSymbol_eq_dot_or_dash p.m4).imp (congrArg some) (congrArg some)
  | cons p _ ih => exact ih.imp (by simp +contextual [List.getLast?_cons]) (by simp +contextual [List.getLast?_cons])

/-- A gap stands only after five symbols of a row: at an index of the form `6 * k + 5`. -/
theorem index_of_gap (h : Spelled n syms) {i : Nat} (hi : syms[i]? = some Symbol.gap) : i % 6 = 5 := by
  have hrow (p : PatRow) {i : Nat} : (rowSymbols p)[i]? ≠ some Symbol.gap := fun hgap => by
    simpa using dot_or_dash_of_mem_rowSymbols (List.mem_of_getElem? hgap)
  induction h generalizing i with
  | row p => exact absurd hi (hrow p)
  | cons p _ ih =>
    rw [List.getElem?_append, rowSymbols_length] at hi
    split_ifs at hi with hlt
    · exact absurd hi (hrow p)
    · rw [List.getElem?_cons] at hi
      split_ifs at hi with hgap
      · omega
      · have := ih hi
        omega

theorem no_gap_after_gap (h : Spelled n syms) (i : Nat) (hi : syms[i]? = some Symbol.gap) :
    syms[i + 1]? ≠ some Symbol.gap := fun hnext => by
  have hfirst := h.index_of_gap hi
  have hsecond := h.index_of_gap hnext
  omega

end Spelled

theorem opticalSequence_length_le (c : Config) (v : Half) : (opticalSequence c v.toNat).length ≤ 29 := by
  have hlen := (spelled_opticalSequence c v.toNat).length_succ
  have hdigits : (decimalDigits v.toNat).length ≤ 5 := decimalDigits_length_le (by decide) (half_lt_ten_pow v)
  omega

/-- A SEQMAX of at least 29, which R8 asks for, is never exceeded. -/
theorem encodeCode_of_wf (hcfg : c.wf) (v : Half) : encodeCode c v = some (opticalSequence c v.toNat) := by
  obtain ⟨-, -, -, -, hseqMax, -⟩ := hcfg
  rw [encodeCode_eq_ifFits, ifFits_eq_some ((opticalSequence_length_le c v).trans hseqMax)]

/-! ### ENC.ENCODE (R261) -/

theorem symbolByte_eq_symbolNumber : symbolByte = symbolNumber := by
  funext x
  cases x <;> rfl

theorem execEncEncode_of_some {s : State} {code : Half} (h : encodeCode s.cfg code = some syms) :
    execEncEncode code s = .next { s with out := { s.out with
      resp := some ⟨.ok, true, natValue syms.length, syms.map symbolNumber⟩ } } := by
  simp only [execEncEncode, h, symbolByte_eq_symbolNumber]
  rfl

theorem execEncEncode_of_none {s : State} {code : Half} (h : encodeCode s.cfg code = none) :
    execEncEncode code s = .next (responded s .lengthError false 0) := by
  simp only [execEncEncode, h]
  rfl

end Sys2Proof.Machine

namespace Sys2Proof.Claims

open Sys2Proof.Machine

/-- Settles O31: ENC.ENCODE by whether the encoder reports a sequence, which under R8 it does. -/
theorem encodeAnswersItsSymbols : Obligations.EncodeAnswersItsSymbols := by
  unfold Obligations.EncodeAnswersItsSymbols
  refine fun v s => ⟨encoded_of_encode_eq rfl, fun hcfg => ?answered, execEncEncode_of_none⟩
  case answered =>
    have hsome := encodeCode_of_wf hcfg v
    exact ⟨_, hsome, opticalSequence_length_le s.cfg v, execEncEncode_of_some hsome⟩

/-- Settles O32: the divisors are the weights of five decimal digits, which hold every 16-bit number. -/
theorem encodeSpellsTheDecimalDigits : Obligations.EncodeSpellsTheDecimalDigits := by
  unfold Obligations.EncodeSpellsTheDecimalDigits
  exact encodeCode_eq_ifFits

/-- Settles O33: an optical sequence is rows of marks with single gaps between, as many rows as `v` has digits. -/
theorem encodedLengthIsSixPerDigitLessOne : Obligations.EncodedLengthIsSixPerDigitLessOne := by
  unfold Obligations.EncodedLengthIsSixPerDigitLessOne
  intro c v hcfg
  have hspelled := spelled_opticalSequence c v.toNat
  exact ⟨_, encodeCode_of_wf hcfg v, Nat.eq_sub_of_add_eq hspelled.length_succ, opticalSequence_length_le c v,
    hspelled.invalid_not_mem, hspelled.no_gap_after_gap, hspelled.head?_eq, hspelled.getLast?_eq⟩

/-- Settles O34: row by row. -/
theorem patternRomHasTheClosedForm : Obligations.PatternRomHasTheClosedForm := by
  unfold Obligations.PatternRomHasTheClosedForm
  intro g hg
  interval_cases g <;> rfl

end Sys2Proof.Claims

/-! The annunciator at play (46_annunciator.md R283 to R291): what a TICK makes of a loaded sequence, read off the table
of R128, how many TICKs that leaves to its END, and which events write the annunciator. -/

namespace Sys2Proof.Claims

open Sys2Proof.Machine

/-! ### A row of R128 field by field -/

section

variable {a b : Annunciator} {st : AnnState} {idx tlast : Nat} {led : Bool}

namespace Moved

theorem st_eq (h : Moved a b st idx led tlast) : b.st = st := (congrArg Annunciator.st h :)
theorem loaded_eq (h : Moved a b st idx led tlast) : b.loaded = a.loaded := (congrArg Annunciator.loaded h :)
theorem seq_eq (h : Moved a b st idx led tlast) : b.seq = a.seq := (congrArg Annunciator.seq h :)
theorem slen_eq (h : Moved a b st idx led tlast) : b.slen = a.slen := (congrArg Annunciator.slen h :)
theorem idx_eq (h : Moved a b st idx led tlast) : b.idx = idx := (congrArg Annunciator.idx h :)
theorem led_eq (h : Moved a b st idx led tlast) : b.led = led := (congrArg Annunciator.led h :)

end Moved

namespace Discarded

theorem loaded_eq (h : Discarded a b) : b.loaded = false := (congrArg Annunciator.loaded h :)
theorem seq_eq (h : Discarded a b) : b.seq = a.seq := (congrArg Annunciator.seq h :)
theorem slen_eq (h : Discarded a b) : b.slen = 0 := (congrArg Annunciator.slen h :)

end Discarded

end

end Sys2Proof.Claims

namespace Sys2Proof.Machine

open Sys2Proof.Claims

variable {s t : State} {c : Config} {now n : Nat} {a b : Annunciator} {status : Status} {i : Instr} {e : Event}

/-! ### A TICK of a loaded sequence -/

/-- The rows of R128 for a loaded sequence without INVALID: what a TICK sampled at `now` makes of annunciator `a`. -/
inductive PlaysOn (c : Config) (now : Nat) (a b : Annunciator) : Prop
  | finish (hst : a.st = .idle) (hidx : a.idx = a.slen) (hb : Discarded a b)
  | light {m : Mark} (hst : a.st = .idle) (hidx : a.idx < a.slen) (hm : litMark (current a) = some m)
      (hb : Moved a b .signal a.idx true now)
  | beginGap (hst : a.st = .idle) (hidx : a.idx < a.slen) (hgap : current a = .gap)
      (hb : Moved a b .pause a.idx false now)
  | darken {m : Mark} (hst : a.st = .signal) (hm : litMark (current a) = some m) (hel : onTime c m ≤ now - a.tlast)
      (hb : Moved a b .pause a.idx false now)
  | stayLit {m : Mark} (hst : a.st = .signal) (hm : litMark (current a) = some m)
      (hel : ¬ onTime c m ≤ now - a.tlast) (hb : Moved a b .signal a.idx true a.tlast)
  | endPause {p : Nat} (hst : a.st = .pause) (hp : pauseTime c (current a) = some p) (hel : p ≤ now - a.tlast)
      (hb : Moved a b .idle (a.idx + 1) false now)
  | stayDark {p : Nat} (hst : a.st = .pause) (hp : pauseTime c (current a) = some p) (hel : ¬ p ≤ now - a.tlast)
      (hb : Moved a b .pause a.idx false a.tlast)

theorem Annunciator.Inv.tickReady (h : a.Inv c) : TickReady c a := by
  obtain ⟨hled, hplay, -, hempty, hidx, hslen, hwf, -⟩ := h
  exact ⟨hled, hplay, hempty, hidx, hslen, hwf⟩

/-- A TICK that is not refused follows a row of R128. -/
theorem tickRow_of_annTick (h : TickReady s.cfg s.ann) (ht : exec .annTick s = .next t) :
    s.ann.tlast ≤ s.port.now ∧ ∃ status, TickRow s t status := by
  change execAnnTick s = .next t at ht
  by_cases hback : s.port.now < s.ann.tlast
  · rw [execAnnTick_refused hback] at ht
    cases ht
  · have hnow := not_lt.mp hback
    obtain ⟨t', status, -, -, ht', hrow, -⟩ := execAnnTick_follows h hnow
    cases ht'.symm.trans ht
    exact ⟨hnow, status, hrow⟩

theorem playsOn_of_tickRow (h : s.ann.Inv s.cfg) (hp : s.ann.Playable) (hload : s.ann.loaded = true)
    (hrow : TickRow s t status) : t.fq = s.fq ∧ PlaysOn s.cfg s.port.now s.ann t.ann := by
  obtain ⟨-, hplay, hsignal, -, hidx, -⟩ := h
  cases hst : s.ann.st with
  | idle =>
    simp only [TickRow, hst, hload, Bool.true_eq_false, if_false] at hrow
    obtain ⟨hfq, -, hrow⟩ := hrow
    refine ⟨hfq, ?_⟩
    split at hrow
    next hend => exact .finish hst (hidx.antisymm hend) hrow
    next hend =>
      have hmore : s.ann.idx < s.ann.slen := not_le.mp hend
      cases hsym : current s.ann with
      | dot | dash => exact .light hst hmore (congrArg litMark hsym) (by simpa only [hsym] using hrow)
      | gap => exact .beginGap hst hmore hsym (by simpa only [hsym] using hrow)
      | invalid => exact absurd hsym (hp _ hmore)
  | signal =>
    simp only [TickRow, hst] at hrow
    obtain ⟨hfq, -, hrow⟩ := hrow
    refine ⟨hfq, ?_⟩
    obtain hsym | hsym : current s.ann = .dot ∨ current s.ann = .dash := hsignal hst
    all_goals
      simp only [hsym] at hrow
      split at hrow
      next hel => exact .darken hst (congrArg litMark hsym) hel hrow
      next hel => exact .stayLit hst (congrArg litMark hsym) hel hrow
  | pause =>
    simp only [TickRow, hst] at hrow
    obtain ⟨hfq, -, hrow⟩ := hrow
    refine ⟨hfq, ?_⟩
    cases hsym : current s.ann with
    | dot | dash | gap =>
      simp only [hsym] at hrow
      split at hrow
      next hel => exact .endPause hst (congrArg (pauseTime s.cfg) hsym) hel hrow
      next hel => exact .stayDark hst (congrArg (pauseTime s.cfg) hsym) hel hrow
    | invalid =>
      obtain ⟨-, hmore⟩ := hplay (by simp [hst])
      exact absurd hsym (hp _ hmore)

/-- A TICK of a loaded sequence takes no code and plays the sequence on. -/
theorem annTick_playsOn (h : s.ann.Inv s.cfg) (hp : s.ann.Playable) (hload : s.ann.loaded = true)
    (ht : exec .annTick s = .next t) : t.fq = s.fq ∧ PlaysOn s.cfg s.port.now s.ann t.ann := by
  obtain ⟨-, status, hrow⟩ := tickRow_of_annTick h.tickReady ht
  exact playsOn_of_tickRow h hp hload hrow

theorem loaded_of_active (h : a.Inv c) (hst : a.st ≠ .idle) : a.loaded = true := by
  obtain ⟨-, hplay, -⟩ := h
  obtain ⟨hload, -⟩ := hplay hst
  exact hload

/-! ### What a row leaves -/

namespace PlaysOn

/-- While a sequence is loaded no row writes the sequence store (R289). -/
theorem seq_eq (h : PlaysOn c now a b) : b.seq = a.seq := by
  cases h with
  | finish _ _ hb => exact hb.seq_eq
  | light _ _ _ hb | beginGap _ _ _ hb | darken _ _ _ hb | stayLit _ _ _ hb | endPause _ _ _ hb | stayDark _ _ _ hb =>
    exact hb.seq_eq

/-- Only END unloads the sequence, and no other row changes its length. -/
theorem ended_or_kept (h : PlaysOn c now a b) :
    (a.st = .idle ∧ a.idx = a.slen ∧ Discarded a b) ∨
      (b.loaded = a.loaded ∧ b.slen = a.slen ∧ (b.idx = a.idx ∨ b.idx = a.idx + 1)) := by
  cases h with
  | finish hst hidx hb => exact .inl ⟨hst, hidx, hb⟩
  | light _ _ _ hb | beginGap _ _ _ hb | darken _ _ _ hb | stayLit _ _ _ hb | stayDark _ _ _ hb =>
    exact .inr ⟨hb.loaded_eq, hb.slen_eq, .inl hb.idx_eq⟩
  | endPause _ _ _ hb => exact .inr ⟨hb.loaded_eq, hb.slen_eq, .inr hb.idx_eq⟩

/-- What is played stays free of INVALID: a row keeps the sequence or empties it. -/
theorem playable (h : PlaysOn c now a b) (hp : a.Playable) : b.Playable := by
  intro i hi
  rw [h.seq_eq]
  obtain ⟨-, -, hb⟩ | ⟨-, hslen, -⟩ := h.ended_or_kept
  · rw [hb.slen_eq] at hi
    exact absurd hi (Nat.not_lt_zero i)
  · exact hp i (hslen ▸ hi)

end PlaysOn

/-! ### The TICKs still needed (R291) -/

theorem ticksFrom_zero (a : Annunciator) (i : Nat) : ticksFrom a i 0 = 0 := rfl

theorem ticksFrom_succ (a : Annunciator) (i n : Nat) :
    ticksFrom a i (n + 1) = symbolTicks (Store.read Symbol.dot a.seq i) + ticksFrom a (i + 1) n := by
  simp [ticksFrom, List.range_succ_eq_map, Function.comp_def, Nat.add_comm, Nat.add_left_comm]

theorem ticksFrom_eq_of_seq_eq (hseq : b.seq = a.seq) (i n : Nat) : ticksFrom b i n = ticksFrom a i n := by
  rw [ticksFrom, hseq, ticksFrom]

/-- The TICKs of the symbols after the current one. -/
def ticksAfter (a : Annunciator) : Nat := ticksFrom a (a.idx + 1) (a.slen - (a.idx + 1))

theorem ticksLeft_of_signal (hst : a.st = .signal) : ticksLeft a = ticksAfter a + 3 := by
  rw [ticksLeft, hst, ticksAfter]

theorem ticksLeft_of_pause (hst : a.st = .pause) : ticksLeft a = ticksAfter a + 2 := by
  rw [ticksLeft, hst, ticksAfter]

theorem ticksLeft_of_idle (hst : a.st = .idle) : ticksLeft a = ticksFrom a a.idx (a.slen - a.idx) + 1 := by
  rw [ticksLeft, hst]

theorem ticksLeft_of_ended (hst : a.st = .idle) (hidx : a.idx = a.slen) : ticksLeft a = 1 := by
  rw [ticksLeft_of_idle hst, hidx, Nat.sub_self, ticksFrom_zero]

theorem ticksLeft_of_idle_lt (hst : a.st = .idle) (hidx : a.idx < a.slen) :
    ticksLeft a = symbolTicks (current a) + ticksAfter a + 1 := by
  rw [ticksLeft_of_idle hst, show a.slen - a.idx = a.slen - (a.idx + 1) + 1 by omega, ticksFrom_succ]
  rfl

theorem ticksLeft_pos (a : Annunciator) : 0 < ticksLeft a := by
  cases hst : a.st with
  | idle => simp [ticksLeft_of_idle hst]
  | signal => simp [ticksLeft_of_signal hst]
  | pause => simp [ticksLeft_of_pause hst]

theorem symbolTicks_of_litMark {sym : Symbol} {m : Mark} (hm : litMark sym = some m) : symbolTicks sym = 3 := by
  cases sym with
  | dot | dash => rfl
  | gap | invalid => cases hm

/-- A row that keeps the index keeps the symbols after it. -/
theorem ticksAfter_of_moved {st : AnnState} {led : Bool} {tlast : Nat} (hb : Moved a b st a.idx led tlast) :
    ticksAfter b = ticksAfter a := by
  rw [ticksAfter, hb.idx_eq, hb.slen_eq, ticksFrom_eq_of_seq_eq hb.seq_eq, ticksAfter]

/-- With the index moved on, the symbols after it are those to play. -/
theorem ticksLeft_of_moved_idle {led : Bool} {tlast : Nat} (hb : Moved a b .idle (a.idx + 1) led tlast) :
    ticksLeft b = ticksAfter a + 1 := by
  rw [ticksLeft_of_idle hb.st_eq, hb.idx_eq, hb.slen_eq, ticksFrom_eq_of_seq_eq hb.seq_eq, ticksAfter]

theorem onTime_le (c : Config) (m : Mark) : onTime c m ≤ 3 * c.tDot := by
  cases m with
  | dot => exact Nat.le_mul_of_pos_left _ (by decide)
  | dash => exact le_rfl

theorem pauseTime_le {sym : Symbol} {p : Nat} (hp : pauseTime c sym = some p) : p ≤ max c.tSym c.tWord := by
  cases sym with
  | dot | dash =>
    cases hp
    exact le_max_left ..
  | gap =>
    cases hp
    exact le_max_right ..
  | invalid => cases hp

/-- A TICK ends the sequence with its last phase, plays one phase, or waits for a duration of R47 to elapse. -/
theorem PlaysOn.phase (h : PlaysOn c now a b) :
    (b.loaded = false ∧ ticksLeft a = 1) ∨
    (b.loaded = a.loaded ∧ ticksLeft b + 1 = ticksLeft a) ∨
    (b.loaded = a.loaded ∧ ticksLeft b = ticksLeft a ∧
      (now < a.tlast + 3 * c.tDot ∨ now < a.tlast + c.tSym ∨ now < a.tlast + c.tWord)) := by
  cases h with
  | finish hst hidx hb => exact .inl ⟨hb.loaded_eq, ticksLeft_of_ended hst hidx⟩
  | light hst hidx hm hb =>
    refine .inr (.inl ⟨hb.loaded_eq, ?_⟩)
    rw [ticksLeft_of_signal hb.st_eq, ticksAfter_of_moved hb, ticksLeft_of_idle_lt hst hidx,
      symbolTicks_of_litMark hm]
    omega
  | beginGap hst hidx hgap hb =>
    refine .inr (.inl ⟨hb.loaded_eq, ?_⟩)
    rw [ticksLeft_of_pause hb.st_eq, ticksAfter_of_moved hb, ticksLeft_of_idle_lt hst hidx,
      hgap, symbolTicks]
    omega
  | darken hst _ _ hb =>
    refine .inr (.inl ⟨hb.loaded_eq, ?_⟩)
    rw [ticksLeft_of_pause hb.st_eq, ticksAfter_of_moved hb, ticksLeft_of_signal hst]
  | endPause hst _ _ hb =>
    refine .inr (.inl ⟨hb.loaded_eq, ?_⟩)
    rw [ticksLeft_of_moved_idle hb, ticksLeft_of_pause hst]
  | @stayLit m hst _ hel hb =>
    have := onTime_le c m
    refine .inr (.inr ⟨hb.loaded_eq, ?_, by omega⟩)
    rw [ticksLeft_of_signal hb.st_eq, ticksAfter_of_moved hb, ticksLeft_of_signal hst]
  | stayDark hst hp hel hb =>
    have := pauseTime_le hp
    refine .inr (.inr ⟨hb.loaded_eq, ?_, by omega⟩)
    rw [ticksLeft_of_pause hb.st_eq, ticksAfter_of_moved hb, ticksLeft_of_pause hst]

/-! ### The durations (R290) -/

/-- The LED is put out by the SIGNAL row of a symbol whose on-time has elapsed. -/
theorem PlaysOn.onTime_of_darkened (h : PlaysOn c now a b) (hst : a.st = .signal) (hoff : b.led = false) :
    ∃ m, litMark (current a) = some m ∧ onTime c m ≤ now - a.tlast := by
  cases h with
  | darken _ hm hel _ => exact ⟨_, hm, hel⟩
  | stayLit _ _ _ hb => exact nomatch hoff.symm.trans hb.led_eq
  | finish hidle | light hidle | beginGap hidle => exact nomatch hst.symm.trans hidle
  | endPause hpause | stayDark hpause => exact nomatch hst.symm.trans hpause

/-- Pause is left by the PAUSE row of a symbol whose pause has elapsed. -/
theorem PlaysOn.pauseTime_of_left (h : PlaysOn c now a b) (hst : a.st = .pause) (hleft : b.st ≠ .pause) :
    ∃ p, pauseTime c (current a) = some p ∧ p ≤ now - a.tlast := by
  cases h with
  | endPause _ hp hel _ => exact ⟨_, hp, hel⟩
  | stayDark _ _ _ hb => exact absurd hb.st_eq hleft
  | finish hidle | light hidle | beginGap hidle => exact nomatch hst.symm.trans hidle
  | darken hsignal | stayLit hsignal => exact nomatch hst.symm.trans hsignal

/-! ### The sequence loaded is playable (R288) -/

theorem encodeCode_invalid_not_mem (hcfg : c.wf) {code : Half} {syms : List Symbol}
    (h : encodeCode c code = some syms) : Symbol.invalid ∉ syms := by
  rw [encodeCode_of_wf hcfg, Option.some.injEq] at h
  subst h
  exact (spelled_opticalSequence c code.toNat).invalid_not_mem

/-- LOAD brings in the symbols of the encoder, or leaves the annunciator as it was (R282). -/
theorem playable_of_tickRow_unloaded (hcfg : s.cfg.wf) (hst : s.ann.st = .idle) (hload : s.ann.loaded = false)
    (hp : s.ann.Playable) (hrow : TickRow s t status) : t.ann.Playable := by
  simp only [TickRow, hst, hload, if_true] at hrow
  split at hrow
  next =>
    obtain ⟨-, hann, -⟩ := hrow
    rwa [hann]
  next =>
    obtain ⟨-, hrow⟩ := hrow
    split at hrow
    next syms henc =>
      obtain ⟨-, -, hslen, -, -, -, -, hread, -⟩ := hrow
      intro i hi
      rw [hslen] at hi
      rw [hread i _ (List.getElem?_eq_getElem hi)]
      exact fun hbad => encodeCode_invalid_not_mem hcfg henc (hbad ▸ List.getElem_mem hi)
    next =>
      obtain ⟨-, hann, -⟩ := hrow
      rwa [hann]

theorem annTick_playable (h : s.Inv) (hp : s.ann.Playable) (ht : exec .annTick s = .next t) : t.ann.Playable := by
  have hann := h.ann_inv
  cases hload : s.ann.loaded with
  | true => exact (annTick_playsOn hann hp hload ht).2.playable hp
  | false =>
    obtain ⟨-, -, hempty, -⟩ := hann.tickReady
    obtain ⟨-, -, hst⟩ := hempty hload
    obtain ⟨-, status, hrow⟩ := tickRow_of_annTick hann.tickReady ht
    exact playable_of_tickRow_unloaded h.cfg_wf hst hload hp hrow

/-! ### Which events write the annunciator -/

theorem ann_eq_of_ne_annTick (ht : exec i s = .next t) (hi : i ≠ .annTick) : t.ann = s.ann :=
  not_imp_comm.mp (exec_changesOnly i t ht).ann hi

/-- Whatever next state an outcome gives has the annunciator of `s`. -/
def NextKeepsAnn (s : State) (x : Result) : Prop := ∀ t, x = .next t → t.ann = s.ann

theorem issue_keepsAnn (hi : i ≠ .annTick) (din : List Byte) : NextKeepsAnn s (issue i din s) :=
  fun _ ht => ann_eq_of_ne_annTick (s := offered din s) ht hi

theorem issuePush_keepsAnn (hi : i ≠ .annTick) (data : List Byte) : NextKeepsAnn s (issuePush i data n s) := by
  intro t ht
  obtain ⟨t1, h1, rfl | ⟨r, rfl⟩⟩ := issuePush_next ht
  all_goals exact (issue_keepsAnn hi _ _ h1 :)

theorem hostIn_keepsAnn (enumerated : Bool) (inbound : Option (List Byte)) :
    NextKeepsAnn s (hostIn enumerated inbound s) := by
  cases enumerated with
  | false =>
    rintro t ⟨⟩
    rfl
  | true =>
    cases inbound with
    | none =>
      rintro t ⟨⟩
      rfl
    | some p =>
      simp only [hostIn, Bool.true_eq_false, if_false]
      split
      · exact issuePush_keepsAnn (by simp) _
      · exact fun _ ht => nomatch ht

theorem hostOutPop_keepsAnn : NextKeepsAnn s (hostOutPop s) := by
  intro t ht
  obtain ⟨-, t1, h1, hout⟩ := hostOutPop_next ht
  have hann : t1.ann = s.ann := issue_keepsAnn (by simp) _ t1 h1
  obtain ⟨-, rfl⟩ | ⟨r, -, ⟨-, rfl⟩ | ⟨-, rfl⟩⟩ := hout
  all_goals exact hann

theorem hostOutWrite_keepsAnn (k : Nat) : NextKeepsAnn s (hostOutWrite k s) := by
  intro t ht
  obtain ⟨data, -, -, rfl⟩ := hostOutWrite_next ht
  rfl

theorem hostOutRequeue_keepsAnn : NextKeepsAnn s (hostOutRequeue s) := by
  intro t ht
  obtain ⟨k, rest, -, hpush⟩ := hostOutRequeue_next ht
  exact (issuePush_keepsAnn (by simp) _ t hpush :)

theorem engineMove_keepsAnn (he : e.IsEngineMove) : NextKeepsAnn s (runEvent e s) := by
  intro t ht
  obtain ⟨d, l, o, -, rfl⟩ := engineMove_next he ht
  exact setLink_ann s d l

theorem runTransaction_playable (h : s.Inv) (hp : s.ann.Playable) {x : Transaction}
    (ht : runTransaction x s = .next t) : t.ann.Playable := by
  cases hx : decode x.cw with
  | error err =>
    rw [runTransaction_of_decode_error hx] at ht
    cases ht
    exact hp
  | ok i =>
    rw [runTransaction_of_decode_ok hx] at ht
    by_cases hi : i = .annTick
    · subst hi
      exact annTick_playable (setPort_inv h x.port) hp ht
    · rw [ann_eq_of_ne_annTick ht hi]
      exact hp

theorem runEvent_playable (h : s.Inv) (hp : s.ann.Playable) (ht : runEvent e s = .next t) : t.ann.Playable := by
  have hkept (hann : t.ann = s.ann) : t.ann.Playable := hann ▸ hp
  cases e with
  | command x => exact runTransaction_playable h hp ht
  | blockReset =>
    cases ht
    exact fun i hi => absurd hi (Nat.not_lt_zero i)
  | engRxByte v => exact hkept (engineMove_keepsAnn ⟨v, .rx, .inl rfl⟩ t ht)
  | engTxByte => exact hkept (engineMove_keepsAnn ⟨0, .tx, .inr (.inl rfl)⟩ t ht)
  | engComplete d => exact hkept (engineMove_keepsAnn ⟨0, d, .inr (.inr (.inl rfl))⟩ t ht)
  | engFault d => exact hkept (engineMove_keepsAnn ⟨0, d, .inr (.inr (.inr rfl))⟩ t ht)
  | hbIn enumerated inbound => exact hkept (hostIn_keepsAnn enumerated inbound t ht)
  | hbOut => exact hkept (hostOutPop_keepsAnn t ht)
  | hbOutWrite k => exact hkept (hostOutWrite_keepsAnn k t ht)
  | hbOutRequeue => exact hkept (hostOutRequeue_keepsAnn t ht)
  | dispatch f => exact hkept (issue_keepsAnn (i := .fqEnq _) nofun [] t ht)

end Sys2Proof.Machine

namespace Sys2Proof.Claims

open Sys2Proof.Machine

/-- Settles O36: the LED is on in Signal only, so the SIGNAL row puts it out, and the PAUSE row leaves Pause. -/
theorem durationsAreLowerBounds : Obligations.DurationsAreLowerBounds := by
  unfold Obligations.DurationsAreLowerBounds
  intro s t h hp ht
  obtain ⟨hnow, -⟩ := tickRow_of_annTick h.tickReady ht
  obtain ⟨hled, -⟩ := h.tickReady
  have hplays (hst : s.ann.st ≠ .idle) : PlaysOn s.cfg s.port.now s.ann t.ann :=
    (annTick_playsOn h hp (loaded_of_active h hst) ht).2
  refine ⟨fun hon hoff => ?_, fun hst hleft => ?_⟩
  · have hst : s.ann.st = .signal := hled.mp hon
    obtain ⟨m, hm, hel⟩ := (hplays (by simp [hst])).onTime_of_darkened hst hoff
    exact ⟨m, hm, by omega⟩
  · obtain ⟨p, hpause, hel⟩ := (hplays (by simp [hst])).pauseTime_of_left hst hleft
    exact ⟨p, hpause, by omega⟩

/-- Settles O37: every row of a loaded sequence but END keeps it loaded. -/
theorem oneCodeAtATime : Obligations.OneCodeAtATime := by
  unfold Obligations.OneCodeAtATime
  intro s t h hp ht hload
  obtain ⟨hfq, hplays⟩ := annTick_playsOn h hp hload ht
  refine ⟨hfq, hplays.seq_eq, ?_⟩
  obtain ⟨hst, hidx, hb⟩ | ⟨hkept, hslen, hidx⟩ := hplays.ended_or_kept
  · have hended : t.ann.loaded = false := hb.loaded_eq
    exact ⟨fun _ => ⟨hst, hidx⟩, by simp [hended]⟩
  · exact ⟨by simp [hkept, hload], fun _ => ⟨hslen, hidx⟩⟩

/-- Settles O38: a TICK that neither ends the sequence nor plays a phase waits for a duration. -/
theorem eachTickPlaysAtMostOnePhase : Obligations.EachTickPlaysAtMostOnePhase := by
  unfold Obligations.EachTickPlaysAtMostOnePhase
  intro s t h hp hload ht
  have hpos := ticksLeft_pos t.ann
  obtain ⟨hended, hone⟩ | ⟨hkept, hplayed⟩ | ⟨hkept, hwaits, hel⟩ := (annTick_playsOn h hp hload ht).2.phase
  · exact ⟨by simp [hended], fun _ => hone, fun _ _ _ => ⟨by omega, fun _ => hended⟩⟩
  · rw [hload] at hkept
    exact ⟨fun _ => by omega, by simp [hkept], fun _ _ _ => ⟨fun _ => ⟨hkept, hplayed⟩, by omega⟩⟩
  · rw [hload] at hkept
    exact ⟨fun _ => by omega, by simp [hkept], by omega⟩

/-- Settles O43: only a TICK and reset write the annunciator, and both leave a playable sequence. -/
theorem everyStepKeepsSequencesPlayable : Obligations.EveryStepKeepsSequencesPlayable := by
  unfold Obligations.EveryStepKeepsSequencesPlayable
  intro s t h hp ht
  cases hs : s.agenda with
  | nil =>
    rw [step, hs] at ht
    cases ht
    exact hp
  | cons e rest =>
    rw [step_of_agenda_cons hs] at ht
    exact runEvent_playable (begin_inv h rest) hp ht

end Sys2Proof.Claims

/-! The table of errors (60_exceptions.md R311, R319, R320): the STATUS each command answers, and what it changes where
that is an error, operation by operation. -/

namespace Sys2Proof.Machine

open Sys2Proof.Claims

variable {s t : State} {i : Instr} {r : Ring} {d : Dir} {n : Half} {e : Status}

/-! ### One row of the table -/

/-- Whatever next state an outcome gives holds a response with the STATUS of R311, and on an error differs from `s` by
the row of R320. The two premises are for the row of LTX.START, which moves bytes of RBT into `hb`. -/
def MatchesErrors (i : Instr) (s : State) (x : Result) : Prop :=
  ∀ t, x = .next t → ∃ rsp, t.out.resp = some rsp ∧ rsp.status = expectedStatus i s ∧
    (rsp.status ≠ .ok → s.rbt.Inv s.cfg → Memory.wf s.ltx.hb → ErrorRow i rsp.status s t)

/-- A command that succeeds; `answer` and `acknowledge` are such responses. -/
theorem respond_matches (hok : expectedStatus i s = .ok) {v : Bool} {val : Half} {dout : List Byte} :
    MatchesErrors i s (.next (respond t .ok v val dout)) := by
  rintro _ ⟨⟩
  exact ⟨_, rfl, hok.symm, fun herr => absurd rfl herr⟩

theorem raiseError_matches (he : expectedStatus i s = e)
    (hrow : s.rbt.Inv s.cfg → Memory.wf s.ltx.hb → ErrorRow i e s (raiseError t e)) :
    MatchesErrors i s (.next (raiseError t e)) := by
  rintro _ ⟨⟩
  exact ⟨_, rfl, he.symm, fun _ => hrow⟩

/-- A start is answered OK or with the error of its direction, as the engine accepts it or not. -/
theorem respondStart_matches (hport : t.port = s.port)
    (he : expectedStatus i s = if s.port.startOk then .ok else startError d)
    (hrow : s.port.startOk = false → s.rbt.Inv s.cfg → Memory.wf s.ltx.hb →
      ErrorRow i (startError d) s (raiseError t (startError d))) {v : Bool} {val : Half} :
    MatchesErrors i s (.next (respondStart t d v val)) := by
  rcases respondStart_cases (s := t) (d := d) v val with ⟨hok, eq⟩ | ⟨hok, eq⟩ <;> rw [eq]
  all_goals rw [hport] at hok
  · exact respond_matches (by rw [he, if_pos hok])
  · exact raiseError_matches (by rw [he, hok]; rfl) (hrow hok)

theorem matches_fault (f : Fault) : MatchesErrors i s (.fault f) := fun _ ht => nomatch ht

theorem matches_refused (f : Refusal) : MatchesErrors i s (.refused f) := fun _ ht => nomatch ht

theorem raiseError_sameUnits (e : Status) : s.SameUnits (raiseError s e) := ⟨rfl, rfl, rfl, rfl, rfl, rfl⟩

/-! ### Ring buffers -/

theorem expectedStatus_pushOf (r : Ring) (n : Half) : expectedStatus (pushOf r n) s =
    if ringAvail s.cfg (s.ring r) < n.toNat then .bufferOverflow else .ok := by
  cases r <;> rfl

theorem expectedStatus_popnOf (r : Ring) (n : Half) : expectedStatus (popnOf r n) s =
    if s.cfg.bufSize < n.toNat then .illegal else .ok := by
  cases r <;> rfl

theorem pushRing_matches : MatchesErrors (pushOf r n) s (pushRing r n.toNat s) := by
  rcases pushRing_cases (r := r) (n := n.toNat) (s := s) with ⟨hfull, eq⟩ | ⟨-, -, eq⟩ | ⟨hfit, -, eq⟩ <;> rw [eq]
  · refine raiseError_matches (by rw [expectedStatus_pushOf, if_pos hfull]) fun _ _ => ?_
    cases r <;> exact raiseError_sameUnits _
  · exact matches_refused _
  · exact respond_matches (by rw [expectedStatus_pushOf, if_neg hfit.not_gt])

theorem popnRing_matches : MatchesErrors (popnOf r n) s (popnRing r n.toNat s) := by
  rcases popnRing_cases (r := r) (n := n.toNat) (s := s) with ⟨hfit, eq⟩ | ⟨hbeyond, eq⟩ <;> rw [eq]
  · exact respond_matches (by rw [expectedStatus_popnOf, if_neg hfit.not_gt])
  · refine raiseError_matches (by rw [expectedStatus_popnOf, if_pos hbeyond]) fun _ _ => ?_
    cases r <;> exact raiseError_sameUnits _

/-! ### Link transfers -/

/-- LTX.START refused by the engine: the bytes are moved and stay in `hb` (R177). -/
theorem txStarted_errorRow (hok : s.port.startOk = false) (hinv : s.rbt.Inv s.cfg) (hhb : Memory.wf s.ltx.hb)
    (ht : exec (.ltxStart n) s = .next (txStarted s (txCount s n.toNat))) :
    ErrorRow (.ltxStart n) .writeError s (txStarted s (txCount s n.toNat)) := by
  obtain ⟨hheld, -⟩ := txCount_le (s := s) (n := n.toNat)
  obtain ⟨-, hframe⟩ := ltxStart_frame ht
  have hltx : (txStarted s (txCount s n.toNat)).ltx = startLink false (txLoaded s (txCount s n.toNat)) := by
    rw [txStarted_ltx, hok]
  exact ⟨txStarted_rbt _ ▸ ringDrop_gaveFront, fun _ => txStarted_read_new hinv hhb hheld,
    fun _ => txStarted_read_old hhb, txStarted_tl _, txStarted_rem _, by rw [hltx]; rfl, by rw [hltx]; rfl,
    txStarted_rc _, hframe⟩

theorem startTx_matches : MatchesErrors (.ltxStart n) s (startTx n.toNat s) := by
  rcases startTx_cases (s := s) (len := n.toNat) with ⟨hx, eq⟩ | ⟨hx, hbuf, hcnt, eq⟩ | ⟨hx, hroom, eq⟩ <;> rw [eq]
  · exact raiseError_matches (if_pos hx) fun _ _ => raiseError_sameUnits _
  · exact raiseError_matches (by rw [expectedStatus, if_neg (not_not_intro hx), if_pos ⟨hbuf, hcnt⟩])
      fun _ _ => raiseError_sameUnits _
  · refine respondStart_matches (by simp) (by rw [expectedStatus, if_neg (not_not_intro hx), if_neg hroom]; rfl)
      (fun hok hinv hhb => ?_)
    have hrow := txStarted_errorRow hok hinv hhb eq
    rwa [txStarted, respondStart_of_refused (by simpa using hok)] at hrow

theorem doneTx_matches : MatchesErrors .ltxDone s (doneTx s) := by
  unfold doneTx
  split <;> exact respond_matches rfl

theorem startRx_matches : MatchesErrors .lrxStart s (startRx s) := by
  rcases startRx_cases (s := s) with ⟨hx, eq⟩ | ⟨hx, eq⟩ <;> rw [eq]
  · exact raiseError_matches (if_pos hx) fun _ _ => raiseError_sameUnits _
  · refine respondStart_matches (by simp) (by rw [expectedStatus, if_neg (not_not_intro hx)]; rfl) (fun hok _ _ => ?_)
    rw [hok]
    exact ⟨rfl, rfl, rfl, rfl, rfl, rfl⟩

theorem expectedStatus_faultOf (d : Dir) : expectedStatus (faultOf d) s =
    if (s.link d).xs = .error then
      if (s.link d).rc < s.cfg.retryCap then (if s.port.startOk then .ok else startError d) else .retryLimitExceeded
    else .ok := by
  cases d <;> rfl

theorem faultLink_matches : MatchesErrors (faultOf d) s (faultLink d s) := by
  rcases faultLink_cases (s := s) (d := d) with ⟨hx, eq⟩ | ⟨hx, hrc, eq⟩ | ⟨hx, hcap, eq⟩ <;> rw [eq]
  · exact respond_matches (by rw [expectedStatus_faultOf, if_neg hx])
  · refine respondStart_matches (by simp) (by rw [expectedStatus_faultOf, if_pos hx, if_pos hrc]) (fun hok _ _ => ?_)
    rw [hok]
    cases d <;> exact ⟨rfl, rfl, rfl, rfl, rfl, rfl⟩
  · refine raiseError_matches (by rw [expectedStatus_faultOf, if_pos hx, if_neg hcap.not_gt]) fun _ _ => ?_
    cases d <;> exact ⟨rfl, rfl, rfl, rfl, rfl, rfl⟩

/-- LRX.READ of a transfer in flight or complete fails by the room in RBR alone (R183). -/
theorem expectedStatus_lrxRead_of_started (hx : s.lrx.xs = .active ∨ s.lrx.xs = .complete) :
    expectedStatus .lrxRead s = if ringAvail s.cfg s.rbr < rxCount s then .bufferOverflow else .ok := by
  have hne : s.lrx.xs ≠ .error := by rcases hx with hx | hx <;> simp [hx]
  rw [expectedStatus, if_neg hne]
  exact if_congr (and_iff_right hx) rfl rfl

theorem readRx_matches : MatchesErrors .lrxRead s (readRx s) := by
  rcases readRx_cases (s := s) with ⟨hx, eq⟩ | ⟨hx, eq⟩ | ⟨hx, hfull, eq⟩ | ⟨hx, hfit, eq⟩ <;> rw [eq]
  · exact raiseError_matches (if_pos hx) fun _ _ => raiseError_sameUnits _
  · exact respond_matches (by simp [expectedStatus, hx])
  · exact raiseError_matches (by rw [expectedStatus_lrxRead_of_started hx, if_pos hfull])
      fun _ _ => raiseError_sameUnits _
  · exact respond_matches (by rw [expectedStatus_lrxRead_of_started hx, if_neg hfit.not_gt])

/-! ### Fault queue, encoder and annunciator -/

theorem enqueueCode_matches : MatchesErrors (.fqEnq n) s (enqueueCode n s) := by
  unfold enqueueCode
  split
  next hroom => exact respond_matches (by rw [expectedStatus, if_pos hroom])
  next hfull => exact raiseError_matches (by rw [expectedStatus, if_neg hfull]) fun _ _ => raiseError_sameUnits _

theorem dequeueCode_matches : MatchesErrors .fqDeq s (dequeueCode s) := by
  unfold dequeueCode
  split <;> exact respond_matches rfl

theorem execEncEncode_matches : MatchesErrors (.encEncode n) s (execEncEncode n s) := by
  cases henc : encodeCode s.cfg n with
  | some syms =>
    rw [execEncEncode_of_some henc]
    exact respond_matches (by simp [expectedStatus, henc])
  | none =>
    rw [execEncEncode_of_none henc]
    exact raiseError_matches (if_pos henc) fun _ _ => raiseError_sameUnits _

/-- A TICK that takes no code cannot fail: LengthError is branch LOAD's. -/
theorem expectedStatus_annTick_of_not_load (h : ¬ (s.ann.st = .idle ∧ s.ann.loaded = false)) :
    expectedStatus .annTick s = .ok := if_neg fun ⟨hst, hload, _⟩ => h ⟨hst, hload⟩

theorem tickLoad_matches (hst : s.ann.st = .idle) (hload : s.ann.loaded = false) :
    MatchesErrors .annTick s (tickLoad s) := by
  rcases tickLoad_cases (s := s) with ⟨hq, eq⟩ | ⟨c, q, hq, henc, eq⟩ | ⟨c, q, syms, hq, henc, eq⟩ <;> rw [eq]
  · exact respond_matches (by simp [expectedStatus, hq])
  · exact raiseError_matches (by simp [expectedStatus, hst, hload, hq, henc])
      fun _ _ => ⟨⟨c, hq⟩, rfl, rfl, rfl, rfl, rfl⟩
  · exact respond_matches (by simp [expectedStatus, hq, henc])

theorem tickSymbol_matches (h : ¬ (s.ann.st = .idle ∧ s.ann.loaded = false))
    (f : Annunciator → Symbol → Annunciator) : MatchesErrors .annTick s (tickSymbol f s) := by
  rcases tickSymbol_cases (s := s) f with ⟨-, eq⟩ | ⟨-, eq⟩ <;> rw [eq]
  · exact respond_matches (expectedStatus_annTick_of_not_load h)
  · exact matches_fault _

theorem tickBranch_matches : MatchesErrors .annTick s (tickBranch s) := by
  unfold tickBranch
  split
  next hst =>
    split
    next hload => exact tickLoad_matches hst hload
    next hload =>
      split
      · exact respond_matches (expectedStatus_annTick_of_not_load (by simp [hload]))
      · exact tickSymbol_matches (by simp [hload]) _
  next hst => exact tickSymbol_matches (by simp [hst]) _
  next hst => exact tickSymbol_matches (by simp [hst]) _

theorem execAnnTick_matches : MatchesErrors .annTick s (execAnnTick s) := by
  unfold execAnnTick
  split
  · exact matches_refused _
  · exact tickBranch_matches

/-! ### Every command -/

theorem exec_matches (i : Instr) : MatchesErrors i s (exec i s) := by
  cases i with
  | rbtPush => exact pushRing_matches (r := .rbt)
  | rbrPush => exact pushRing_matches (r := .rbr)
  | rbtPopn => exact popnRing_matches (r := .rbt)
  | rbrPopn => exact popnRing_matches (r := .rbr)
  | rbtPop | rbtClear | rbtLen | rbtIsempty | rbtAvail | rbtCap | rbtIsfull => exact respond_matches rfl
  | rbrPop | rbrClear | rbrLen | rbrIsempty | rbrAvail | rbrCap | rbrIsfull => exact respond_matches rfl
  | ltxStart => exact startTx_matches
  | ltxDone => exact doneTx_matches
  | ltxFault => exact faultLink_matches (d := .tx)
  | lrxFault => exact faultLink_matches (d := .rx)
  | ltxStatus | ltxRetries | lrxStatus | lrxRetries | lrxIdle => exact respond_matches rfl
  | lrxStart => exact startRx_matches
  | lrxRead => exact readRx_matches
  | fqEnq => exact enqueueCode_matches
  | fqDeq => exact dequeueCode_matches
  | encEncode => exact execEncEncode_matches
  | annTick => exact execAnnTick_matches

end Sys2Proof.Machine

namespace Sys2Proof.Claims

open Sys2Proof.Machine

/-- Settles O46: the response has the STATUS of the row by which the state changed. -/
theorem errorsChangeOnlyWhatTheTableLists : Obligations.ErrorsChangeOnlyWhatTheTableLists := by
  unfold Obligations.ErrorsChangeOnlyWhatTheTableLists
  intro i s t rsp hinv hhb ht hrsp herr
  obtain ⟨rsp', hrsp', -, hrow⟩ := exec_matches i t ht
  cases hrsp.symm.trans hrsp'
  exact hrow herr hinv hhb

/-- Settles O47, by the same walk over the commands as O46. -/
theorem statusIsAsTheErrorTableSays : Obligations.StatusIsAsTheErrorTableSays := by
  unfold Obligations.StatusIsAsTheErrorTableSays
  intro i s t ht
  obtain ⟨rsp, hrsp, hstatus, -⟩ := exec_matches i t ht
  exact ⟨rsp, hrsp, hstatus⟩

end Sys2Proof.Claims

/-! The configuration, which no event writes (70_reset_and_hazards.md R352), and the two kinds of reset: the machine's
first state and the event of R350. -/

namespace Sys2Proof.Machine

variable {s : State} {i : Instr} {n : Nat}

/-! ### The configuration -/

/-- Whatever next state an outcome gives has the configuration of `s`. -/
def NextKeepsCfg (s : State) (x : Result) : Prop := ∀ t, x = .next t → t.cfg = s.cfg

theorem exec_keepsCfg (i : Instr) : NextKeepsCfg s (exec i s) := by
  intro t ht
  obtain ⟨⟨hcfg, -⟩, -⟩ := exec_changesOnly i t ht
  exact hcfg

theorem runTransaction_keepsCfg (x : Transaction) : NextKeepsCfg s (runTransaction x s) := by
  cases hx : decode x.cw with
  | ok i =>
    rw [runTransaction_of_decode_ok hx]
    exact exec_keepsCfg (s := { s with port := x.port }) i
  | error =>
    rw [runTransaction_of_decode_error hx]
    rintro t ⟨⟩
    rfl

theorem engineMove_keepsCfg {e : Event} (he : e.IsEngineMove) : NextKeepsCfg s (runEvent e s) := by
  intro t ht
  obtain ⟨d, l, o, -, rfl⟩ := engineMove_next he ht
  exact setLink_cfg s d l

theorem issue_keepsCfg (i : Instr) (din : List Byte) : NextKeepsCfg s (issue i din s) :=
  exec_keepsCfg (s := offered din s) i

theorem issuePush_keepsCfg (i : Instr) (data : List Byte) : NextKeepsCfg s (issuePush i data n s) := by
  intro t ht
  obtain ⟨t1, h1, rfl | ⟨b, rfl⟩⟩ := issuePush_next ht
  all_goals exact (issue_keepsCfg _ _ _ h1 :)

theorem hostIn_keepsCfg (enumerated : Bool) (inbound : Option (List Byte)) :
    NextKeepsCfg s (hostIn enumerated inbound s) := by
  unfold hostIn
  split
  · rintro t ⟨⟩
    rfl
  split
  · rintro t ⟨⟩
    rfl
  split
  · exact issuePush_keepsCfg _ _
  · exact fun _ ht => nomatch ht

theorem hostOutPop_keepsCfg : NextKeepsCfg s (hostOutPop s) := by
  intro t ht
  obtain ⟨-, t1, h1, hout⟩ := hostOutPop_next ht
  have hcfg : t1.cfg = s.cfg := issue_keepsCfg _ _ t1 h1
  obtain ⟨-, rfl⟩ | ⟨rsp, -, ⟨-, rfl⟩ | ⟨-, rfl⟩⟩ := hout
  all_goals exact hcfg

theorem hostOutWrite_keepsCfg (k : Nat) : NextKeepsCfg s (hostOutWrite k s) := by
  intro t ht
  obtain ⟨data, -, -, rfl⟩ := hostOutWrite_next ht
  rfl

theorem hostOutRequeue_keepsCfg : NextKeepsCfg s (hostOutRequeue s) := by
  intro t ht
  obtain ⟨k, rest, -, hpush⟩ := hostOutRequeue_next ht
  exact (issuePush_keepsCfg _ _ t hpush :)

theorem runEvent_keepsCfg (e : Event) : NextKeepsCfg s (runEvent e s) := by
  cases e with
  | command x => exact runTransaction_keepsCfg x
  | engRxByte v => exact engineMove_keepsCfg ⟨v, .rx, .inl rfl⟩
  | engTxByte => exact engineMove_keepsCfg ⟨0, .tx, .inr (.inl rfl)⟩
  | engComplete d => exact engineMove_keepsCfg ⟨0, d, .inr (.inr (.inl rfl))⟩
  | engFault d => exact engineMove_keepsCfg ⟨0, d, .inr (.inr (.inr rfl))⟩
  | blockReset =>
    rintro t ⟨⟩
    rfl
  | hbIn enumerated inbound => exact hostIn_keepsCfg enumerated inbound
  | hbOut => exact hostOutPop_keepsCfg
  | hbOutWrite k => exact hostOutWrite_keepsCfg k
  | hbOutRequeue => exact hostOutRequeue_keepsCfg
  | dispatch f => exact issue_keepsCfg (.fqEnq _) []

theorem step_keepsCfg : NextKeepsCfg s (step s) := by
  intro t ht
  cases hs : s.agenda with
  | nil =>
    rw [step, hs] at ht
    cases ht
    rfl
  | cons e rest =>
    rw [step_of_agenda_cons hs] at ht
    exact runEvent_keepsCfg (s := s.begin rest) e t ht

/-! ### Reset -/

/-- R8 holds of the values it prints, and of every value of the open parameters. -/
theorem standard_wf : Config.standard.wf := by
  have hpkt : Config.openPkt.val + 1 ≤ 65535 := Config.openPkt.isLt
  have htWord : Config.openTSym < Config.openTSym + 1 + Config.openTWordExcess := by omega
  exact ⟨by decide, by decide, ⟨Nat.le_add_left .., hpkt⟩, rfl, by decide, rfl, htWord⟩

theorem reset_inv : State.reset.Inv := by
  have hring : RingBuf.atReset.Inv .standard := ringCleared_inv (by decide)
  exact ⟨standard_wf, hring, hring, linkAtReset_inv, linkAtReset_inv, fun hx => absurd rfl hx, Nat.zero_le _,
    annAtReset_inv, Nat.zero_le _⟩

end Sys2Proof.Machine

namespace Sys2Proof.Claims

open Sys2Proof.Machine

/-- Settles O45: a step waits or runs one event, and no event writes the configuration. -/
theorem configurationNeverChanges : Obligations.ConfigurationNeverChanges := by
  unfold Obligations.ConfigurationNeverChanges
  exact fun _ => step_keepsCfg

/-- Settles O40: the step is the reset event on the state begun, which gives each unit the value of R60. -/
theorem blockResetRestoresEveryElement : Obligations.BlockResetRestoresEveryElement := by
  unfold Obligations.BlockResetRestoresEveryElement
  intro s rest hs
  exact ⟨blockReset (s.begin rest), step_of_agenda_cons hs, ⟨rfl, rfl, rfl, rfl, rfl, rfl⟩, rfl, rfl⟩

/-- Settles O41: no symbol is loaded at reset, so every one that is is playable. -/
theorem resetMeetsTheInvariants : Obligations.ResetMeetsTheInvariants := by
  unfold Obligations.ResetMeetsTheInvariants
  exact ⟨reset_inv, fun i hi => absurd hi (Nat.not_lt_zero i), rfl⟩

end Sys2Proof.Claims
